-- ==== Sys2Proof/Word.lean ====
section
/-! DEFINITION. The word types of the IFK-W60 and the position of a core on the mesh. -/
namespace Sys2Proof

/-- A doubleword: the width of a general register (01 R20). -/
abbrev Word := BitVec 64

/-- A byte of memory. -/
abbrev Byte := BitVec 8

/-- The two's-complement value of a doubleword (04 R112, `signed(v)`). -/
def Word.sval (v : Word) : Int := v.toInt

/-- The doubleword that an exact integer wraps to (00 R7: width appears only where a slice says so). -/
def Word.ofExact (i : Int) : Word := BitVec.ofInt 64 i

/-- A core of the mesh: wafer, column, row (01 R39). -/
structure CoreId where
  w : Nat
  x : Nat
  y : Nat
  deriving DecidableEq, Repr

end Sys2Proof
end

