-- ==== Sys2Proof/Syntax.lean ====
section
/-! DEFINITION. The instructions and the asynchronous steps of the IFK-W60: one constructor of `Instr` for each row of
the opcode table, over operand packs that hold what the decoder has read (02 R46 to R68; 95 for the rows without words). -/
namespace Sys2Proof

/-- A general register g0 to g15, or a vector register v0 to v15, by number (01 R20, 08 R242). -/
abbrev Reg := Fin 16

/-- The guard of a QUAL prefix (02 R55). -/
inductive Guard where
  | none | p0 | p1 | p2 | p3 | np0 | np1 | np2
  deriving DecidableEq, Repr

/-- The address forms of 01 R41. -/
inductive Form where
  | va | stay | go | loc | rel | ln | phys
  deriving DecidableEq, Repr

/-- The access sizes of 02 R53. -/
inductive Size where
  | b | h | w | d
  deriving DecidableEq, Repr

/-- The ordering of an atomic (02 R55, 05 R155). -/
inductive AmoOrd where
  | plain | aq | ar
  deriving DecidableEq, Repr

/-- The full-empty actions of a load (02 R55, 05 R149). -/
inductive FeLoad where
  | none | fe | fec | ft
  deriving DecidableEq, Repr

/-- The full-empty actions of a store (02 R55, 05 R149). -/
inductive FeStore where
  | none | ff | ef
  deriving DecidableEq, Repr

/-- The conditions of BR (05 R159). -/
inductive Cond where
  | alw | p0 | p1 | p2 | p3 | np0 | np1 | np3
  deriving DecidableEq, Repr

/-- The element types of the PAGE extension (02 R54). -/
inductive Elem where
  | i32 | f32 | bf16 | t8 | t6 | i8
  deriving DecidableEq, Repr

/-- A guard and nothing else. -/
structure Op0 where
  g : Guard
  deriving DecidableEq, Repr

/-- An S word that names a general register in x (02 R48). -/
structure OpX where
  g : Guard
  x : Reg
  deriving DecidableEq, Repr

/-- TRAP with its code 0 to 31 (05 R181). -/
structure OpTrap where
  g : Guard
  code : Nat
  deriving DecidableEq, Repr

/-- Three registers. -/
structure OpDAB where
  g : Guard
  d : Reg
  a : Reg
  b : Reg
  deriving DecidableEq, Repr

/-- Destination and one source. -/
structure OpDA where
  g : Guard
  d : Reg
  a : Reg
  deriving DecidableEq, Repr

/-- Two sources, no destination. -/
structure OpAB where
  g : Guard
  a : Reg
  b : Reg
  deriving DecidableEq, Repr

/-- One source, no destination. -/
structure OpA where
  g : Guard
  a : Reg
  deriving DecidableEq, Repr

/-- One register in field d. -/
structure OpD where
  g : Guard
  d : Reg
  deriving DecidableEq, Repr

/-- Four registers; c is the third source after the rule c = d of 02 R53. -/
structure OpDABC where
  g : Guard
  d : Reg
  a : Reg
  b : Reg
  c : Reg
  deriving DecidableEq, Repr

/-- Three registers and a size (LEA, 04 R117). -/
structure OpDABS where
  g : Guard
  size : Size
  d : Reg
  a : Reg
  b : Reg
  deriving DecidableEq, Repr

/-- Two registers and a size (BSWAP, SEXT, 04 R128). -/
structure OpDAS where
  g : Guard
  size : Size
  d : Reg
  a : Reg
  deriving DecidableEq, Repr

/-- A compare of two registers into predicate p, with the AND form (04 R118). -/
structure OpCmp where
  g : Guard
  p : Fin 4
  conj : Bool
  a : Reg
  b : Reg
  deriving DecidableEq, Repr

/-- A test of one register into predicate p (VNTEST, 04 R136). -/
structure OpCmpA where
  g : Guard
  p : Fin 4
  conj : Bool
  a : Reg
  deriving DecidableEq, Repr

/-- A compare with a signed immediate (04 R119). -/
structure OpCmpI where
  g : Guard
  p : Fin 4
  conj : Bool
  a : Reg
  imm : Int
  deriving DecidableEq, Repr

/-- Two registers and a signed immediate (ADDI, 04 R120). -/
structure OpDAI where
  g : Guard
  d : Reg
  a : Reg
  imm : Int
  deriving DecidableEq, Repr

/-- Two registers and an unsigned count (shift immediates, 04 R120). -/
structure OpDAN where
  g : Guard
  d : Reg
  a : Reg
  n : Nat
  deriving DecidableEq, Repr

/-- A register and a signed immediate (MOVI, 04 R121). -/
structure OpDI where
  g : Guard
  d : Reg
  imm : Int
  deriving DecidableEq, Repr

/-- A register and an unsigned number: MOVHI's immediate, LOOP's length, a special register's number. -/
structure OpDN where
  g : Guard
  d : Reg
  n : Nat
  deriving DecidableEq, Repr

/-- A scalar load; imm counts units of the size (05 R147). -/
structure OpLoad where
  g : Guard
  form : Form
  aq : Bool
  fe : FeLoad
  size : Size
  d : Reg
  a : Reg
  imm : Int
  deriving DecidableEq, Repr

/-- A scalar store; d holds the data (05 R147). -/
structure OpStore where
  g : Guard
  form : Form
  rl : Bool
  fe : FeStore
  size : Size
  d : Reg
  a : Reg
  imm : Int
  deriving DecidableEq, Repr

/-- An atomic (05 R155). -/
structure OpAmo where
  g : Guard
  form : Form
  ord : AmoOrd
  size : Size
  d : Reg
  a : Reg
  b : Reg
  deriving DecidableEq, Repr

/-- AMO.CAS: b expected, c new (05 R155). -/
structure OpAmoC where
  g : Guard
  form : Form
  ord : AmoOrd
  size : Size
  d : Reg
  a : Reg
  b : Reg
  c : Reg
  deriving DecidableEq, Repr

/-- A reduction (05 R157). -/
structure OpRed where
  g : Guard
  form : Form
  rl : Bool
  size : Size
  a : Reg
  b : Reg
  deriving DecidableEq, Repr

/-- BR: condition and displacement in halfwords (05 R159). -/
structure OpBr where
  g : Guard
  cond : Cond
  disp : Int
  deriving DecidableEq, Repr

/-- CALL: link register and displacement in halfwords (05 R160). -/
structure OpCall where
  g : Guard
  c : Reg
  disp : Int
  deriving DecidableEq, Repr

/-- SPAWN: the child's kind and displacement in halfwords (05 R166). -/
structure OpSpawn where
  g : Guard
  heavy : Bool
  disp : Int
  deriving DecidableEq, Repr

/-- WAITEQ, WAITNE, WAITGE: d limit, a address, b value (05 R170). -/
structure OpWait where
  g : Guard
  form : Form
  size : Size
  d : Reg
  a : Reg
  b : Reg
  deriving DecidableEq, Repr

/-- WAITANY: d limit, a address (05 R170). -/
structure OpWaitAny where
  g : Guard
  form : Form
  size : Size
  d : Reg
  a : Reg
  deriving DecidableEq, Repr

/-- A vector instruction of three registers with mask m and type t; t = none takes VFMT.TYPE (02 R54). -/
structure OpVDAB where
  g : Guard
  m : Option (Fin 4)
  t : Option Elem
  d : Reg
  a : Reg
  b : Reg
  deriving DecidableEq, Repr

/-- VFMA, VFMS. -/
structure OpVDABC where
  g : Guard
  m : Option (Fin 4)
  t : Option Elem
  d : Reg
  a : Reg
  b : Reg
  c : Reg
  deriving DecidableEq, Repr

/-- A vector instruction of two registers. -/
structure OpVDA where
  g : Guard
  m : Option (Fin 4)
  t : Option Elem
  d : Reg
  a : Reg
  deriving DecidableEq, Repr

/-- VIOTA. -/
structure OpVD where
  g : Guard
  m : Option (Fin 4)
  t : Option Elem
  d : Reg
  deriving DecidableEq, Repr

/-- A vector compare into mask k (08 R258). -/
structure OpVCmp where
  g : Guard
  m : Option (Fin 4)
  t : Option Elem
  k : Fin 4
  conj : Bool
  a : Reg
  b : Reg
  deriving DecidableEq, Repr

/-- VNMASK into mask k (08 R268). -/
structure OpVNMask where
  g : Guard
  m : Option (Fin 4)
  t : Option Elem
  k : Fin 4
  a : Reg
  deriving DecidableEq, Repr

/-- VLD; imm counts units of 64 bytes (08 R263). -/
structure OpVLoad where
  g : Guard
  m : Option (Fin 4)
  t : Option Elem
  form : Form
  aq : Bool
  fe : FeLoad
  d : Reg
  a : Reg
  imm : Int
  deriving DecidableEq, Repr

/-- VST (08 R263). -/
structure OpVStore where
  g : Guard
  m : Option (Fin 4)
  t : Option Elem
  form : Form
  rl : Bool
  fe : FeStore
  d : Reg
  a : Reg
  imm : Int
  deriving DecidableEq, Repr

/-- VLDS, VLDB: b is the stride or the scale address (08 R264, R265). -/
structure OpVLoadB where
  g : Guard
  m : Option (Fin 4)
  t : Option Elem
  form : Form
  aq : Bool
  fe : FeLoad
  d : Reg
  a : Reg
  b : Reg
  deriving DecidableEq, Repr

/-- VSTS, VSTB (08 R264, R265). -/
structure OpVStoreB where
  g : Guard
  m : Option (Fin 4)
  t : Option Elem
  form : Form
  rl : Bool
  fe : FeStore
  d : Reg
  a : Reg
  b : Reg
  deriving DecidableEq, Repr

/-- VGATH, VSCAT, VSCATADD, VSCATMAX: b is the index register (08 R266, R267). -/
structure OpVLane where
  g : Guard
  m : Option (Fin 4)
  t : Option Elem
  form : Form
  d : Reg
  a : Reg
  b : Reg
  deriving DecidableEq, Repr


/-- A step without an operand. -/
structure EvNone where
  deriving DecidableEq, Repr

/-- A step of one core. -/
structure EvCore where
  c : CoreId
  deriving DecidableEq, Repr

/-- A step of one core on its slot, entry, line, record or lane number n. -/
structure EvCoreN where
  c : CoreId
  n : Nat
  deriving DecidableEq, Repr

/-- A step on a message in flight, by its place in the list of messages (0 is the oldest). -/
structure EvMsg where
  i : Nat
  deriving DecidableEq, Repr

/-- A step of a partition. -/
structure EvPart where
  p : Nat
  deriving DecidableEq, Repr

/-- A step of a partition on its launch, launch slot or log slot number n. -/
structure EvPartN where
  p : Nat
  n : Nat
  deriving DecidableEq, Repr

/-- A step of launch n of a partition on one gang. -/
structure EvGang where
  p : Nat
  n : Nat
  gang : Nat
  deriving DecidableEq, Repr

/-- The crew of launch n on one core. -/
structure EvCrew where
  p : Nat
  n : Nat
  c : CoreId
  deriving DecidableEq, Repr

/-- A gang channel's phase: launch slot, gang number, channel. -/
structure EvPhase where
  p : Nat
  lslot : Nat
  gang : Nat
  chan : Nat
  deriving DecidableEq, Repr

/-- A step on a walk, a Dezal link or an Abagal link, by number. -/
structure EvIdx where
  i : Nat
  deriving DecidableEq, Repr

/-- A write of a doubleword to core control space, by offset (07 R233; 15 R444). -/
structure EvCtl where
  c : CoreId
  off : Nat
  v : Word
  deriving DecidableEq, Repr

/-- A host access through the BAR2 window of a link, at an offset of the window (13 R413; 14 R425). -/
structure EvHostRead where
  link : Nat
  off : Nat
  size : Nat
  deriving DecidableEq, Repr

structure EvHostWrite where
  link : Nat
  off : Nat
  data : List Byte
  deriving DecidableEq, Repr

/-- The host atomics: SWAP 0, CAS 1, ADD 2; a is the operand or the expected value, b the new value of CAS (13 R413). -/
structure EvHostAtomic where
  link : Nat
  off : Nat
  op : Nat
  size : Nat
  a : Word
  b : Word
  deriving DecidableEq, Repr

/-- A 64-byte launch record written to doorbell n (14 R425). -/
structure EvDoorbell where
  n : Nat
  words : Vector Word 8
  deriving DecidableEq, Repr

/-- Boot test findings (12 R376): the wafer number, positions whose router or link fails, positions whose core alone fails,
and the feature masks of positions that lack a feature. -/
structure EvBoot where
  wafer : Nat
  dead : List (Nat × Nat)
  dark : List (Nat × Nat)
  feats : List ((Nat × Nat) × Nat)
  deriving DecidableEq, Repr

/-- The Ralax image loaded over Abagal (14 R426). -/
structure EvImage where
  image : List Byte
  deriving DecidableEq, Repr

/-- The nonce of an attestation request (14 R427). -/
structure EvNonce where
  nonce : List Byte
  deriving DecidableEq, Repr

/-- A groom's measurement of its field's power in watts (14 R430). -/
structure EvPower where
  field : Nat
  watts : Nat
  deriving DecidableEq, Repr

/-- A checkpoint command: partition, mask of links wired to shelves, shelf target (14 R431). -/
structure EvCheckpoint where
  p : Nat
  links : Nat
  target : Nat
  deriving DecidableEq, Repr

structure EvRestore where
  p : Nat
  target : Nat
  deriving DecidableEq, Repr

/-- A fabric capability command for one partition: wafers present, group membership, lowest wafer of the group, wafers
accepted, fabric channels, and the VF given or refused permission (16 R453). -/
structure EvFabric where
  p : Nat
  wafers : List Nat
  grp : Bool
  root : Nat
  exp : Nat
  join : Nat
  vf : Nat
  permit : Bool
  deriving DecidableEq, Repr

/-- One constructor per row of the opcode table: the rows with words first, then the rows that share their words with
another row and that the decoder never answers, then the rows without words. A constructor whose pack begins with `Op` is an
instruction; one whose pack begins with `Ev` is a step that no strand issues (95). -/
inductive Instr where
  | add (o : OpDAB)
  | sub (o : OpDAB)
  | and (o : OpDAB)
  | or (o : OpDAB)
  | xor (o : OpDAB)
  | shl (o : OpDAB)
  | shr (o : OpDAB)
  | sar (o : OpDAB)
  | mul (o : OpDAB)
  | mulhu (o : OpDAB)
  | min (o : OpDAB)
  | max (o : OpDAB)
  | mov (o : OpDA)
  | not (o : OpDA)
  | neg (o : OpDA)
  | lea (o : OpDABS)
  | cmpeq (o : OpCmp)
  | cmpne (o : OpCmp)
  | cmplt (o : OpCmp)
  | cmpltu (o : OpCmp)
  | addi (o : OpDAI)
  | shli (o : OpDAN)
  | shri (o : OpDAN)
  | sari (o : OpDAN)
  | cmpeqi (o : OpCmpI)
  | cmplti (o : OpCmpI)
  | movi (o : OpDI)
  | movhi (o : OpDN)
  | ld (o : OpLoad)
  | ldu (o : OpLoad)
  | st (o : OpStore)
  | lds (o : OpLoad)
  | amoSwap (o : OpAmo)
  | amoCas (o : OpAmoC)
  | amoAdd (o : OpAmo)
  | amoMax (o : OpAmo)
  | redAdd (o : OpRed)
  | redAnd (o : OpRed)
  | redOr (o : OpRed)
  | redXor (o : OpRed)
  | redMin (o : OpRed)
  | redMax (o : OpRed)
  | redMinu (o : OpRed)
  | redMaxu (o : OpRed)
  | redFadd (o : OpRed)
  | redFmax (o : OpRed)
  | redFmin (o : OpRed)
  | br (o : OpBr)
  | call (o : OpCall)
  | jr (o : OpA)
  | jalr (o : OpDA)
  | loop (o : OpDN)
  | spawn (o : OpSpawn)
  | waiteq (o : OpWait)
  | waitne (o : OpWait)
  | waitge (o : OpWait)
  | waitany (o : OpWaitAny)
  | fwait (o : OpA)
  | ftest (o : OpA)
  | fcancel (o : OpA)
  | fstatus (o : OpDA)
  | nop (o : Op0)
  | exit (o : Op0)
  | join (o : Op0)
  | yield (o : Op0)
  | brkl (o : Op0)
  | fenceCore (o : OpX)
  | fenceClus (o : OpX)
  | fencePart (o : OpX)
  | fenceFab (o : OpX)
  | fenceSys (o : OpX)
  | trap (o : OpTrap)
  | pin (o : Op0)
  | unpin (o : Op0)
  | div (o : OpDAB)
  | divu (o : OpDAB)
  | rem (o : OpDAB)
  | remu (o : OpDAB)
  | minu (o : OpDAB)
  | maxu (o : OpDAB)
  | rotl (o : OpDAB)
  | rotr (o : OpDAB)
  | popc (o : OpDA)
  | clz (o : OpDA)
  | ctz (o : OpDA)
  | brev (o : OpDA)
  | bfx (o : OpDAB)
  | bfi (o : OpDAB)
  | bswap (o : OpDAS)
  | sext (o : OpDAS)
  | fadd (o : OpDAB)
  | fsub (o : OpDAB)
  | fmul (o : OpDAB)
  | fdiv (o : OpDAB)
  | fmin (o : OpDAB)
  | fmax (o : OpDAB)
  | fsqrt (o : OpDA)
  | fabs (o : OpDA)
  | fma (o : OpDABC)
  | fms (o : OpDABC)
  | fnma (o : OpDABC)
  | fnms (o : OpDABC)
  | fcmpeq (o : OpCmp)
  | fcmplt (o : OpCmp)
  | fcmple (o : OpCmp)
  | fcmpun (o : OpCmp)
  | cvtif (o : OpDA)
  | cvtfi (o : OpDA)
  | cvtfb (o : OpDA)
  | cvtbf (o : OpDA)
  | cvtf8 (o : OpDA)
  | cvt8f (o : OpDA)
  | cvtf6 (o : OpDA)
  | cvt6f (o : OpDA)
  | vntest (o : OpCmpA)
  | vnrep (o : OpDAB)
  | vninfo (o : OpDA)
  | fneg (o : OpDA)
  | fclass (o : OpDA)
  | mfs (o : OpDN)
  | mts (o : OpDN)
  | vadd (o : OpVDAB)
  | vsub (o : OpVDAB)
  | vmul (o : OpVDAB)
  | vdiv (o : OpVDAB)
  | vmin (o : OpVDAB)
  | vmax (o : OpVDAB)
  | vand (o : OpVDAB)
  | vor (o : OpVDAB)
  | vxor (o : OpVDAB)
  | vshl (o : OpVDAB)
  | vshr (o : OpVDAB)
  | vsar (o : OpVDAB)
  | vfma (o : OpVDABC)
  | vfms (o : OpVDABC)
  | vabsd (o : OpVDAB)
  | vsqd (o : OpVDAB)
  | vadds (o : OpVDAB)
  | vmuls (o : OpVDAB)
  | vmaxs (o : OpVDAB)
  | vsplat (o : OpVDA)
  | vcmpeq (o : OpVCmp)
  | vcmpne (o : OpVCmp)
  | vcmplt (o : OpVCmp)
  | vcmple (o : OpVCmp)
  | vsel (o : OpVDAB)
  | vmov (o : OpVDA)
  | vneg (o : OpVDA)
  | vabs (o : OpVDA)
  | vredsum (o : OpVDA)
  | vredmax (o : OpVDA)
  | vredmin (o : OpVDA)
  | vredarg (o : OpVDA)
  | vcvt (o : OpVDA)
  | vscale (o : OpVDA)
  | viota (o : OpVD)
  | vcomp (o : OpVDA)
  | vld (o : OpVLoad)
  | vst (o : OpVStore)
  | vlds (o : OpVLoadB)
  | vsts (o : OpVStoreB)
  | vldb (o : OpVLoadB)
  | vstb (o : OpVStoreB)
  | vgath (o : OpVLane)
  | vscat (o : OpVLane)
  | vscatadd (o : OpVLane)
  | vscatmax (o : OpVLane)
  | vtopkins (o : OpVDAB)
  | vtopkthr (o : OpVDA)
  | vnmask (o : OpVNMask)
  | vnrepv (o : OpVDAB)
  | vbind (o : Op0)
  | vfree (o : Op0)
  | vsetl (o : OpX)
  | vgetl (o : OpX)
  | vwait (o : Op0)
  | vpixrd (o : OpX)
  | rclaim (o : OpDAB)
  | rpub (o : OpAB)
  | rpop (o : OpAB)
  | rpeek (o : OpDAB)
  | rwaitf (o : OpDAB)
  | rwaite (o : OpDAB)
  | rstat (o : OpDA)
  | rcfg (o : OpAB)
  | rapp (o : OpDAB)
  | rsteal (o : OpDA)
  | rpopt (o : OpDA)
  | rcred (o : OpDA)
  | qbind (o : OpA)
  | qfree (o : Op0)
  | copy (o : OpDA)
  | bcset (o : OpAB)
  | bcwait (o : OpDAB)
  | mtask (o : OpDA)
  | mprog (o : OpAB)
  | mthr (o : OpA)
  | mquery (o : OpDA)
  | barc (o : OpD)
  | barg (o : OpDA)
  | barga (o : OpA)
  | bargw (o : OpDAB)
  | wsum (o : OpDAB)
  | wmax (o : OpDAB)
  | wmin (o : OpDAB)
  | wor (o : OpDAB)
  | launch (o : OpDA)
  | lstat (o : OpDA)
  | tsc (o : OpX)
  | whereAt (o : OpX)
  | lnum (o : OpX)
  | ganginfo (o : OpX)
  | crewinfo (o : OpX)
  | feat (o : OpX)
  | seam (o : OpX)
  | mfsp (o : OpDN)
  | mtsp (o : OpDN)
  | vshareWrite (o : OpD)
  | dctlInstall (o : OpD)
  | logctlInstall (o : OpD)
  | logcmdSeam (o : OpD)
  | invr (o : OpDAB)
  | inva (o : OpA)
  | icinv (o : OpAB)
  | trapret (o : Op0)
  | reinj (o : OpAB)
  | ctxsave (o : OpA)
  | ctxload (o : OpA)
  | quiesceHold (o : OpDA)
  | partset (o : OpDA)
  | wswitch (o : OpDA)
  | halt (o : Op0)
  | ctrrd (o : OpDA)
  | ctrcfg (o : OpAB)
  | ctrsave (o : OpA)
  | ctrload (o : OpA)
  | mirset (o : OpAB)
  | mirsync (o : OpAB)
  | retire (o : OpAB)
  | dctlTeardown (o : OpD)
  | logctlRemove (o : OpD)
  | logcmdUnpick (o : OpD)
  | logcmdForget (o : OpD)
  | logcmdResume (o : OpD)
  | quiesceRelease (o : OpDA)
  | partsetDissolve (o : OpDA)
  | vectorGrant (o : EvCore)
  | vectorComplete (o : EvCoreN)
  | barrelTurn (o : EvCore)
  | breakPoint (o : EvCoreN)
  | coatDeparture (o : EvCoreN)
  | coatArrival (o : EvMsg)
  | crewDescriptorReply (o : EvMsg)
  | annexReply (o : EvMsg)
  | admissionAck (o : EvMsg)
  | bounceLanding (o : EvMsg)
  | bounceBackoffExpiry (o : EvCoreN)
  | coatForward (o : EvMsg)
  | ldsReply (o : EvMsg)
  | remoteReadRequest (o : EvMsg)
  | remoteReply (o : EvMsg)
  | postedWriteArrival (o : EvMsg)
  | redArrival (o : EvMsg)
  | mergeGroupTimeout (o : EvCoreN)
  | amoRequest (o : EvMsg)
  | waitRequest (o : EvMsg)
  | waiterResendTimer (o : EvMsg)
  | waitWithdrawal (o : EvMsg)
  | blockLimitExpiry (o : EvCoreN)
  | postAck (o : EvMsg)
  | postRefusal (o : EvMsg)
  | requestResendTimer (o : EvMsg)
  | boardQuery (o : EvMsg)
  | boardReply (o : EvMsg)
  | cancelRequest (o : EvMsg)
  | mirrorUpdate (o : EvMsg)
  | appendArrival (o : EvMsg)
  | appendReply (o : EvMsg)
  | creditRequest (o : EvMsg)
  | creditGrant (o : EvMsg)
  | creditResendTimer (o : EvCoreN)
  | creditReturn (o : EvMsg)
  | stealRequest (o : EvMsg)
  | stealReply (o : EvMsg)
  | dependenceResolved (o : EvCoreN)
  | taskIssue (o : EvCoreN)
  | copyChunkSend (o : EvCoreN)
  | copyChunkArrival (o : EvMsg)
  | copyChunkRefused (o : EvMsg)
  | copyResumeNotice (o : EvMsg)
  | copyPendingTimeout (o : EvCoreN)
  | copyDone (o : EvCoreN)
  | matrixStep (o : EvCoreN)
  | taskDone (o : EvCoreN)
  | scoreLaneTake (o : EvCoreN)
  | scoreBlock (o : EvCoreN)
  | thetaRefresh (o : EvCoreN)
  | crewArrive (o : EvMsg)
  | crewExitNotice (o : EvMsg)
  | crewCompletion (o : EvMsg)
  | crewCompletionAck (o : EvMsg)
  | tscSync (o : EvPart)
  | invalidationDelivery (o : EvPart)
  | invalidationSweep (o : EvPart)
  | launchStop (o : EvPartN)
  | descriptorDrop (o : EvPartN)
  | mapBroadcast (o : EvPart)
  | countingSweep (o : EvPartN)
  | gangPhaseComplete (o : EvPhase)
  | enqueue (o : EvMsg)
  | doorbellLaunch (o : EvDoorbell)
  | launchDepResolved (o : EvPartN)
  | launchAgeing (o : EvPartN)
  | launchSelect (o : EvPart)
  | gangPlacement (o : EvPartN)
  | preemptVictims (o : EvPartN)
  | gangSave (o : EvGang)
  | gangStart (o : EvGang)
  | preemptionStop (o : EvGang)
  | crewEnd (o : EvCrew)
  | faultRecordArrival (o : EvMsg)
  | launchComplete (o : EvPartN)
  | walkComplete (o : EvIdx)
  | walkRetryTimer (o : EvIdx)
  | seamOpen (o : EvPartN)
  | frayNotice (o : EvMsg)
  | debugStop (o : EvCore)
  | debugStopComplete (o : EvCore)
  | debugResume (o : EvCore)
  | controlRegisterWrite (o : EvCtl)
  | dumpWrite (o : EvPart)
  | hostRead (o : EvHostRead)
  | hostWrite (o : EvHostWrite)
  | hostAtomic (o : EvHostAtomic)
  | boot (o : EvBoot)
  | firmwareLoad (o : EvImage)
  | attestation (o : EvNonce)
  | lifetimeWrite (o : EvNone)
  | powerCheck (o : EvPower)
  | checkpointCommand (o : EvCheckpoint)
  | checkpointRestore (o : EvRestore)
  | coreLoss (o : EvCore)
  | linkFailure (o : EvIdx)
  | linkCrcRetry (o : EvIdx)
  | fabricResult (o : EvMsg)
  | gangArrive (o : EvMsg)
  | proxyRequest (o : EvMsg)
  | fabricPartialArrival (o : EvMsg)
  | abagalLinkDown (o : EvIdx)
  | orderlyShutdown (o : EvNone)
  | fabricCapabilityCommand (o : EvFabric)
  deriving DecidableEq, Repr

end Sys2Proof
end

