-- ==== Sys2Proof/WellFormed.lean ====
section
/-! DEFINITION. Which terms of `Instr` an encoding exists for (02 R52, R53, R57, R58; the field rules of 02 R62 to R68), and which
operands of an asynchronous step name something the device has. -/
namespace Sys2Proof

/-- An immediate fits a base field and n XIMM words as a signed number (02 R52). -/
def fitS (base n : Nat) (imm : Int) : Bool :=
  decide (-(2 ^ (base + 10 * n - 1) : Nat) ≤ imm) && decide (imm < (2 ^ (base + 10 * n - 1) : Nat))
/-- The same for an unsigned number. -/
def fitU (base n imm : Nat) : Bool := imm < 2 ^ (base + 10 * n)

/-- The fewest XIMM words that hold a signed immediate; 5 when four do not (02 R77). -/
def ximmS (base : Nat) (imm : Int) : Nat :=
  if fitS base 0 imm then 0 else if fitS base 1 imm then 1 else if fitS base 2 imm then 2
  else if fitS base 3 imm then 3 else if fitS base 4 imm then 4 else 5
/-- The same for an unsigned number. -/
def ximmU (base imm : Nat) : Nat :=
  if fitU base 0 imm then 0 else if fitU base 1 imm then 1 else if fitU base 2 imm then 2
  else if fitU base 3 imm then 3 else if fitU base 4 imm then 4 else 5

/-- One prefix word when the condition holds. -/
def pre (b : Bool) : Nat := if b then 1 else 0
/-- A guard takes a QUAL prefix. -/
def Guard.pre (g : Guard) : Nat := Sys2Proof.pre (g != .none)
def high (r : Reg) : Bool := r.val ≥ 8

/-- An absent c field selects d, so c = 0 is written only where d is 0 (02 R53). -/
def wfC (d c : Reg) : Bool := c.val != 0 || d.val = 0
def wfCmpI (o : OpCmpI) : Bool := o.g.pre + pre (o.conj || high o.a) + ximmS 5 o.imm ≤ 4
def wfDAI (o : OpDAI) : Bool := o.g.pre + pre (high o.d || high o.a) + ximmS 5 o.imm ≤ 4
def wfDAN (o : OpDAN) : Bool := ximmU 5 o.n ≤ 1
def wfDI (o : OpDI) : Bool := o.g.pre + pre (high o.d) + ximmS 8 o.imm ≤ 4
def wfDN (o : OpDN) : Bool := ximmU 8 o.n ≤ 2
def wfLoop (o : OpDN) : Bool := o.n != 0 && ximmU 8 o.n ≤ 1
def wfLoad (o : OpLoad) : Bool := ximmS 5 o.imm ≤ 2
def wfLds (o : OpLoad) : Bool := ximmS 5 o.imm ≤ 2 && o.fe != .ft
def wfStore (o : OpStore) : Bool := ximmS 5 o.imm ≤ 2
def wdSize (z : Size) : Bool := z = .w || z = .d
def wfAmo (o : OpAmo) : Bool := wdSize o.size
def wfAmoC (o : OpAmoC) : Bool := wdSize o.size && wfC o.d o.c
def wfRed (o : OpRed) : Bool := wdSize o.size
def wfRedF (o : OpRed) : Bool := o.size = .w
def wfWait (o : OpWait) : Bool := wdSize o.size
def wfWaitAny (o : OpWaitAny) : Bool := wdSize o.size

/-- The special-register numbers of 01 R23. -/
def specialNumbers : List Nat :=
  [0x00, 0x01, 0x02, 0x03, 0x04, 0x05, 0x06, 0x08, 0x09, 0x0A, 0x0B, 0x0C, 0x0D, 0x0E, 0x0F, 0x10, 0x11, 0x12, 0x13,
   0x18, 0x19, 0x1A, 0x1B, 0x20, 0x21, 0x22, 0x24, 0x25]
/-- The privileged register numbers of 02 R75. -/
def privilegedNumbers : List Nat :=
  [0x40, 0x41, 0x48, 0x49, 0x50, 0x51, 0x58, 0x60, 0x61, 0x62, 0x68, 0x70, 0x71, 0x72, 0x73, 0x74, 0x75, 0x76, 0x77,
   0x78, 0x79, 0x7A, 0x7B, 0x7C, 0x7D, 0x7E, 0x7F, 0x80, 0x81, 0x82]
def wfMFS (o : OpDN) : Bool := specialNumbers.contains o.n
def wfMFSP (o : OpDN) : Bool := privilegedNumbers.contains o.n
/-- Numbers 0x48, 0x50, 0x78 and 0x79 are rows of their own (log 6). -/
def wfMTSP (o : OpDN) : Bool := privilegedNumbers.contains o.n && !([0x48, 0x50, 0x78, 0x79].contains o.n)

/-- An explicit element type is one the member accepts; a mask or a type is present where the member requires it
(08 R255, R259, R260, R269). -/
def wfV (ts : List Elem) (mreq treq : Bool) (m : Option (Fin 4)) (t : Option Elem) : Bool :=
  (!mreq || m.isSome) && (match t with | none => !treq | some e => ts.contains e)
def typesArith : List Elem := [.i32, .f32, .bf16, .i8]
def typesDiv : List Elem := [.i32, .f32, .bf16]
def typesFma : List Elem := [.f32, .bf16]
def typesShift : List Elem := [.i32, .i8]
def typesAll : List Elem := [.i32, .f32, .bf16, .t8, .t6, .i8]
def typesTaper : List Elem := [.t8, .t6]
def typesMem : List Elem := [.i32, .f32, .bf16, .t8, .i8]
def typesF32 : List Elem := [.f32]
def typesAcc : List Elem := [.i32, .f32]

/-- A position of the mesh of some wafer (01 R39; 12). -/
def CoreId.inMesh (c : CoreId) : Bool := c.w < 64 && c.x < 240 && c.y < 256

/-- The operands are ones an encoding holds. -/
def Instr.wf : Instr → Bool
  | .add _ => true
  | .sub _ => true
  | .and _ => true
  | .or _ => true
  | .xor _ => true
  | .shl _ => true
  | .shr _ => true
  | .sar _ => true
  | .mul _ => true
  | .mulhu _ => true
  | .min _ => true
  | .max _ => true
  | .mov _ => true
  | .not _ => true
  | .neg _ => true
  | .lea _ => true
  | .cmpeq _ => true
  | .cmpne _ => true
  | .cmplt _ => true
  | .cmpltu _ => true
  | .addi o => wfDAI o
  | .shli o => wfDAN o
  | .shri o => wfDAN o
  | .sari o => wfDAN o
  | .cmpeqi o => wfCmpI o
  | .cmplti o => wfCmpI o
  | .movi o => wfDI o
  | .movhi o => wfDN o
  | .ld o => wfLoad o
  | .ldu o => wfLoad o
  | .st o => wfStore o
  | .lds o => wfLds o
  | .amoSwap o => wfAmo o
  | .amoCas o => wfAmoC o
  | .amoAdd o => wfAmo o
  | .amoMax o => wfAmo o
  | .redAdd o => wfRed o
  | .redAnd o => wfRed o
  | .redOr o => wfRed o
  | .redXor o => wfRed o
  | .redMin o => wfRed o
  | .redMax o => wfRed o
  | .redMinu o => wfRed o
  | .redMaxu o => wfRed o
  | .redFadd o => wfRedF o
  | .redFmax o => wfRedF o
  | .redFmin o => wfRedF o
  | .br o => ximmS 8 o.disp ≤ 2
  | .call o => ximmS 8 o.disp ≤ 2
  | .jr _ => true
  | .jalr _ => true
  | .loop o => wfLoop o
  | .spawn o => ximmS 8 o.disp ≤ 2
  | .waiteq o => wfWait o
  | .waitne o => wfWait o
  | .waitge o => wfWait o
  | .waitany o => wfWaitAny o
  | .fwait _ => true
  | .ftest _ => true
  | .fcancel _ => true
  | .fstatus _ => true
  | .nop _ => true
  | .exit _ => true
  | .join _ => true
  | .yield _ => true
  | .brkl _ => true
  | .fenceCore _ => true
  | .fenceClus _ => true
  | .fencePart _ => true
  | .fenceFab _ => true
  | .fenceSys _ => true
  | .trap o => o.code < 32
  | .pin _ => true
  | .unpin _ => true
  | .div _ => true
  | .divu _ => true
  | .rem _ => true
  | .remu _ => true
  | .minu _ => true
  | .maxu _ => true
  | .rotl _ => true
  | .rotr _ => true
  | .popc _ => true
  | .clz _ => true
  | .ctz _ => true
  | .brev _ => true
  | .bfx _ => true
  | .bfi _ => true
  | .bswap o => o.size != .b
  | .sext o => o.size != .d
  | .fadd _ => true
  | .fsub _ => true
  | .fmul _ => true
  | .fdiv _ => true
  | .fmin _ => true
  | .fmax _ => true
  | .fsqrt _ => true
  | .fabs _ => true
  | .fma o => wfC o.d o.c
  | .fms o => wfC o.d o.c
  | .fnma o => wfC o.d o.c
  | .fnms o => wfC o.d o.c
  | .fcmpeq _ => true
  | .fcmplt _ => true
  | .fcmple _ => true
  | .fcmpun _ => true
  | .cvtif _ => true
  | .cvtfi _ => true
  | .cvtfb _ => true
  | .cvtbf _ => true
  | .cvtf8 _ => true
  | .cvt8f _ => true
  | .cvtf6 _ => true
  | .cvt6f _ => true
  | .vntest _ => true
  | .vnrep _ => true
  | .vninfo _ => true
  | .fneg _ => true
  | .fclass _ => true
  | .mfs o => wfMFS o
  | .mts o => wfMFS o
  | .vadd o => wfV typesArith false false o.m o.t
  | .vsub o => wfV typesArith false false o.m o.t
  | .vmul o => wfV typesArith false false o.m o.t
  | .vdiv o => wfV typesDiv false false o.m o.t
  | .vmin o => wfV typesArith false false o.m o.t
  | .vmax o => wfV typesArith false false o.m o.t
  | .vand o => wfV typesAll false false o.m o.t
  | .vor o => wfV typesAll false false o.m o.t
  | .vxor o => wfV typesAll false false o.m o.t
  | .vshl o => wfV typesShift false false o.m o.t
  | .vshr o => wfV typesShift false false o.m o.t
  | .vsar o => wfV typesShift false false o.m o.t
  | .vfma o => wfV typesFma false false o.m o.t && wfC o.d o.c
  | .vfms o => wfV typesFma false false o.m o.t && wfC o.d o.c
  | .vabsd o => wfV typesArith false false o.m o.t
  | .vsqd o => wfV typesDiv false false o.m o.t
  | .vadds o => wfV typesArith false false o.m o.t
  | .vmuls o => wfV typesArith false false o.m o.t
  | .vmaxs o => wfV typesArith false false o.m o.t
  | .vsplat o => wfV typesAll false false o.m o.t
  | .vcmpeq o => wfV typesArith false false o.m o.t
  | .vcmpne o => wfV typesArith false false o.m o.t
  | .vcmplt o => wfV typesArith false false o.m o.t
  | .vcmple o => wfV typesArith false false o.m o.t
  | .vsel o => wfV typesAll true false o.m o.t
  | .vmov o => wfV typesAll false false o.m o.t
  | .vneg o => wfV typesArith false false o.m o.t
  | .vabs o => wfV typesArith false false o.m o.t
  | .vredsum o => wfV typesDiv false false o.m o.t
  | .vredmax o => wfV typesArith false false o.m o.t
  | .vredmin o => wfV typesArith false false o.m o.t
  | .vredarg o => wfV typesArith false false o.m o.t
  | .vcvt o => wfV typesAll false true o.m o.t
  | .vscale o => wfV typesTaper false false o.m o.t
  | .viota o => wfV typesShift false false o.m o.t
  | .vcomp o => wfV typesAll true false o.m o.t
  | .vld o => wfV typesMem false false o.m o.t && o.fe != .ft && ximmS 5 o.imm ≤ 1
  | .vst o => wfV typesMem false false o.m o.t && ximmS 5 o.imm ≤ 1
  | .vlds o => wfV typesMem false false o.m o.t && o.fe != .ft
  | .vsts o => wfV typesMem false false o.m o.t
  | .vldb o => wfV typesTaper false false o.m o.t && o.fe != .ft
  | .vstb o => wfV typesTaper false false o.m o.t
  | .vgath o => wfV typesMem false false o.m o.t
  | .vscat o => wfV typesMem false false o.m o.t
  | .vscatadd o => wfV typesAcc false false o.m o.t
  | .vscatmax o => wfV typesAcc false false o.m o.t
  | .vtopkins o => wfV typesF32 true false o.m o.t && o.d.val % 2 = 0
  | .vtopkthr o => wfV typesF32 false false o.m o.t
  | .vnmask o => wfV typesF32 false false o.m o.t
  | .vnrepv o => wfV typesF32 false false o.m o.t
  | .vbind _ => true
  | .vfree _ => true
  | .vsetl _ => true
  | .vgetl _ => true
  | .vwait _ => true
  | .vpixrd _ => true
  | .rclaim _ => true
  | .rpub _ => true
  | .rpop _ => true
  | .rpeek _ => true
  | .rwaitf _ => true
  | .rwaite _ => true
  | .rstat _ => true
  | .rcfg _ => true
  | .rapp _ => true
  | .rsteal _ => true
  | .rpopt _ => true
  | .rcred _ => true
  | .qbind _ => true
  | .qfree _ => true
  | .copy _ => true
  | .bcset _ => true
  | .bcwait _ => true
  | .mtask _ => true
  | .mprog _ => true
  | .mthr _ => true
  | .mquery _ => true
  | .barc _ => true
  | .barg _ => true
  | .barga _ => true
  | .bargw _ => true
  | .wsum _ => true
  | .wmax _ => true
  | .wmin _ => true
  | .wor _ => true
  | .launch _ => true
  | .lstat _ => true
  | .tsc _ => true
  | .whereAt _ => true
  | .lnum _ => true
  | .ganginfo _ => true
  | .crewinfo _ => true
  | .feat _ => true
  | .seam _ => true
  | .mfsp o => wfMFSP o
  | .mtsp o => wfMTSP o
  | .vshareWrite _ => true
  | .dctlInstall _ => true
  | .logctlInstall _ => true
  | .logcmdSeam _ => true
  | .invr _ => true
  | .inva _ => true
  | .icinv _ => true
  | .trapret _ => true
  | .reinj _ => true
  | .ctxsave _ => true
  | .ctxload _ => true
  | .quiesceHold _ => true
  | .partset _ => true
  | .wswitch _ => true
  | .halt _ => true
  | .ctrrd _ => true
  | .ctrcfg _ => true
  | .ctrsave _ => true
  | .ctrload _ => true
  | .mirset _ => true
  | .mirsync _ => true
  | .retire _ => true
  | .dctlTeardown _ => true
  | .logctlRemove _ => true
  | .logcmdUnpick _ => true
  | .logcmdForget _ => true
  | .logcmdResume _ => true
  | .quiesceRelease _ => true
  | .partsetDissolve _ => true
  | .vectorGrant o => o.c.inMesh
  | .vectorComplete o => o.c.inMesh
  | .barrelTurn o => o.c.inMesh
  | .breakPoint o => o.c.inMesh
  | .coatDeparture o => o.c.inMesh
  | .coatArrival _ => true
  | .crewDescriptorReply _ => true
  | .annexReply _ => true
  | .admissionAck _ => true
  | .bounceLanding _ => true
  | .bounceBackoffExpiry o => o.c.inMesh
  | .coatForward _ => true
  | .ldsReply _ => true
  | .remoteReadRequest _ => true
  | .remoteReply _ => true
  | .postedWriteArrival _ => true
  | .redArrival _ => true
  | .mergeGroupTimeout o => o.c.inMesh
  | .amoRequest _ => true
  | .waitRequest _ => true
  | .waiterResendTimer _ => true
  | .waitWithdrawal _ => true
  | .blockLimitExpiry o => o.c.inMesh
  | .postAck _ => true
  | .postRefusal _ => true
  | .requestResendTimer _ => true
  | .boardQuery _ => true
  | .boardReply _ => true
  | .cancelRequest _ => true
  | .mirrorUpdate _ => true
  | .appendArrival _ => true
  | .appendReply _ => true
  | .creditRequest _ => true
  | .creditGrant _ => true
  | .creditResendTimer o => o.c.inMesh
  | .creditReturn _ => true
  | .stealRequest _ => true
  | .stealReply _ => true
  | .dependenceResolved o => o.c.inMesh
  | .taskIssue o => o.c.inMesh
  | .copyChunkSend o => o.c.inMesh
  | .copyChunkArrival _ => true
  | .copyChunkRefused _ => true
  | .copyResumeNotice _ => true
  | .copyPendingTimeout o => o.c.inMesh
  | .copyDone o => o.c.inMesh
  | .matrixStep o => o.c.inMesh
  | .taskDone o => o.c.inMesh
  | .scoreLaneTake o => o.c.inMesh
  | .scoreBlock o => o.c.inMesh
  | .thetaRefresh o => o.c.inMesh
  | .crewArrive _ => true
  | .crewExitNotice _ => true
  | .crewCompletion _ => true
  | .crewCompletionAck _ => true
  | .tscSync o => o.p < 1024
  | .invalidationDelivery o => o.p < 1024
  | .invalidationSweep o => o.p < 1024
  | .launchStop o => o.p < 1024
  | .descriptorDrop o => o.p < 1024
  | .mapBroadcast o => o.p < 1024
  | .countingSweep o => o.p < 1024
  | .gangPhaseComplete o => o.p < 1024
  | .enqueue _ => true
  | .doorbellLaunch o => o.n < 64
  | .launchDepResolved o => o.p < 1024
  | .launchAgeing o => o.p < 1024
  | .launchSelect o => o.p < 1024
  | .gangPlacement o => o.p < 1024
  | .preemptVictims o => o.p < 1024
  | .gangSave o => o.p < 1024
  | .gangStart o => o.p < 1024
  | .preemptionStop o => o.p < 1024
  | .crewEnd o => o.c.inMesh
  | .faultRecordArrival _ => true
  | .launchComplete o => o.p < 1024
  | .walkComplete _ => true
  | .walkRetryTimer _ => true
  | .seamOpen o => o.p < 1024
  | .frayNotice _ => true
  | .debugStop o => o.c.inMesh
  | .debugStopComplete o => o.c.inMesh
  | .debugResume o => o.c.inMesh
  | .controlRegisterWrite o => o.c.inMesh && o.off < 65536 && o.off % 8 = 0
  | .dumpWrite o => o.p < 1024
  | .hostRead o => o.link < 12 && o.off < 2 ^ 42
  | .hostWrite o => o.link < 12 && o.off < 2 ^ 42
  | .hostAtomic o => o.link < 12 && (o.size = 4 || o.size = 8) && o.op < 3 && o.off % o.size = 0
  | .boot o => o.wafer < 64
  | .firmwareLoad _ => true
  | .attestation o => o.nonce.length = 32
  | .lifetimeWrite _ => true
  | .powerCheck o => o.field < 80
  | .checkpointCommand o => o.p < 1024
  | .checkpointRestore o => o.p < 1024
  | .coreLoss o => o.c.inMesh
  | .linkFailure _ => true
  | .linkCrcRetry _ => true
  | .fabricResult _ => true
  | .gangArrive _ => true
  | .proxyRequest _ => true
  | .fabricPartialArrival _ => true
  | .abagalLinkDown _ => true
  | .orderlyShutdown _ => true
  | .fabricCapabilityCommand o => o.p < 1024

/-- Well-formed instructions, as a proposition. -/
abbrev WellFormed (i : Instr) : Prop := i.wf = true

end Sys2Proof
end

