-- ==== Sys2Proof/Decode.lean ====
section
/-! DEFINITION. The decoder of 02 R46 to R69, total on any halfwords, and after it the encoder. -/
namespace Sys2Proof

/-- The decoder's refusals, with the reason codes of 02 R61. -/
inductive Illegal where
  /-- 0x01: more than four prefixes. -/
  | tooManyPrefixes
  /-- 0x02: a repeated XREG, PAGE or QUAL. -/
  | repeatedPrefix
  /-- 0x03: PAGE does not name pages 1 to 5. -/
  | pageUnassigned
  /-- 0x04: major, fn or sub not assigned on the page. -/
  | opUnassigned
  /-- 0x05: a reserved QUAL code. -/
  | qualReserved
  /-- 0x06: QUAL form, ordering or full-empty not accepted by the member. -/
  | qualNotAccepted
  /-- 0x07: XIMM not accepted, or too many. -/
  | ximmNotAccepted
  /-- 0x08: XREG register bits, c or size not accepted. -/
  | xregNotAccepted
  /-- 0x09: page extension not valid for the member. -/
  | extNotValid
  /-- 0x0A: an unused field not zero, or a member's own field rule. -/
  | fieldNotZero
  /-- 0x0B: MFS, MTS, MFSP or MTSP of an undefined register number. -/
  | specialUnknown
  /-- No code: the halfwords end before the chain's instruction word. -/
  | truncated
  deriving DecidableEq, Repr

/-- The REASON of the fault record (02 R61). -/
def Illegal.code : Illegal → Nat
  | .tooManyPrefixes => 1
  | .repeatedPrefix => 2
  | .pageUnassigned => 3
  | .opUnassigned => 4
  | .qualReserved => 5
  | .qualNotAccepted => 6
  | .ximmNotAccepted => 7
  | .xregNotAccepted => 8
  | .extNotValid => 9
  | .fieldNotZero => 10
  | .specialUnknown => 11
  | .truncated => 0

/-- A chain after its prefixes are gathered (02 R51, R57). A payload of an absent prefix is 0, except PAGE. -/
structure Chain where
  nPre : Nat
  nX : Nat
  xv : Nat
  xreg : Nat
  hasXreg : Bool
  page : Option Nat
  qual : Nat
  hasQual : Bool
  dup : Bool
  word : Nat
  deriving DecidableEq, Repr

def Chain.start : Chain :=
  { nPre := 0, nX := 0, xv := 0, xreg := 0, hasXreg := false, page := none, qual := 0, hasQual := false,
    dup := false, word := 0 }

/-- One prefix word joins the chain (02 R51, R52). -/
def Chain.addPrefix (c : Chain) (h : Nat) : Chain :=
  let p := h % 1024
  let k := h / 1024 % 4
  let c := { c with nPre := c.nPre + 1 }
  if k = 0 then { c with nX := c.nX + 1, xv := c.xv * 1024 + p }
  else if k = 1 then { c with xreg := p, hasXreg := true, dup := c.dup || c.hasXreg }
  else if k = 2 then { c with page := some p, dup := c.dup || c.page.isSome }
  else { c with qual := p, hasQual := true, dup := c.dup || c.hasQual }

/-- Gather prefixes up to the instruction word; a fifth prefix is the first failure of 02 R61. -/
def gatherChain : List Nat → Chain → Except Illegal Chain
  | [], _ => .error .truncated
  | h :: t, c =>
    if h % 65536 / 4096 = 15 then
      if c.nPre = 4 then .error .tooManyPrefixes else gatherChain t (c.addPrefix (h % 65536))
    else .ok { c with word := h % 65536 }

/-- The number of halfwords of a gathered chain. -/
def Chain.len (c : Chain) : Nat := c.nPre + 1

def mkReg (hi lo : Nat) : Reg := ⟨(8 * hi + lo) % 16, Nat.mod_lt _ (by decide)⟩
def mkFin4 (n : Nat) : Fin 4 := ⟨n % 4, Nat.mod_lt _ (by decide)⟩

-- Fields of the instruction word (02 R47) and of XREG (02 R51).
def Chain.major (c : Chain) : Nat := c.word / 2048
def Chain.fd (c : Chain) : Nat := c.word / 256 % 8
def Chain.fa (c : Chain) : Nat := c.word / 32 % 8
def Chain.fb (c : Chain) : Nat := c.word / 4 % 8
def Chain.fn (c : Chain) : Nat := c.word % 4
def Chain.imm5 (c : Chain) : Nat := c.word % 32
def Chain.imm8 (c : Chain) : Nat := c.word % 256
def Chain.sub (c : Chain) : Nat := c.word / 32 % 64
def Chain.fx (c : Chain) : Nat := c.word % 32
def Chain.xd (c : Chain) : Nat := c.xreg / 512 % 2
def Chain.xa (c : Chain) : Nat := c.xreg / 256 % 2
def Chain.xb (c : Chain) : Nat := c.xreg / 128 % 2
def Chain.xc (c : Chain) : Nat := c.xreg / 8 % 16
def Chain.xsize (c : Chain) : Nat := c.xreg % 8
def Chain.rd (c : Chain) : Reg := mkReg c.xd c.fd
def Chain.ra (c : Chain) : Reg := mkReg c.xa c.fa
def Chain.rb (c : Chain) : Reg := mkReg c.xb c.fb
/-- Register c: a c field of 0 selects d (02 R53). -/
def Chain.rc (c : Chain) : Reg := if c.xc = 0 then c.rd else mkReg 0 c.xc
def Chain.rx (c : Chain) : Reg := mkReg 0 c.fx
def Chain.pageNo (c : Chain) : Nat := match c.page with | none => 0 | some p => p / 64
def Chain.ext (c : Chain) : Nat := match c.page with | none => 0 | some p => p % 64

/-- The unsigned immediate of 02 R52 over a base field of `base` bits. -/
def Chain.uimm (c : Chain) (base field : Nat) : Nat := c.xv * 2 ^ base + field
/-- The signed immediate of 02 R52. -/
def Chain.simm (c : Chain) (base field : Nat) : Int :=
  let u := c.uimm base field
  let w := base + 10 * c.nX
  if u < 2 ^ (w - 1) then (u : Int) else (u : Int) - (2 ^ w : Nat)

def Chain.guard (c : Chain) : Guard :=
  match c.qual / 128 with
  | 0 => .none | 1 => .p0 | 2 => .p1 | 3 => .p2 | 4 => .p3 | 5 => .np0 | 6 => .np1 | _ => .np2
def Chain.qform (c : Chain) : Nat := c.qual / 16 % 8
def Chain.qord (c : Chain) : Nat := c.qual / 4 % 4
def Chain.qfe (c : Chain) : Nat := c.qual % 4
def Chain.form (c : Chain) : Form :=
  match c.qform with
  | 0 => .va | 1 => .stay | 2 => .go | 3 => .loc | 4 => .rel | 5 => .ln | _ => .phys
def Chain.feLoad (c : Chain) : FeLoad :=
  match c.qfe with | 0 => .none | 1 => .fe | 2 => .fec | _ => .ft
def Chain.feStore (c : Chain) : FeStore :=
  match c.qfe with | 0 => .none | 1 => .ff | _ => .ef
/-- The size, with the member's default for code 0 (02 R53). -/
def Chain.size (c : Chain) (dflt : Size) : Size :=
  match c.xsize with | 1 => .w | 2 => .h | 3 => .b | _ => dflt
def Chain.mask (c : Chain) : Option (Fin 4) :=
  if c.ext / 8 = 0 then none else some (mkFin4 (c.ext / 8 + 3))
def elemOf : Nat → Option Elem
  | 1 => some .i32 | 2 => some .f32 | 3 => some .bf16 | 4 => some .t8 | 5 => some .t6 | 6 => some .i8 | _ => none
def Chain.elem (c : Chain) : Option Elem := elemOf (c.ext % 8)
def condOf : Nat → Cond
  | 0 => .alw | 1 => .p0 | 2 => .p1 | 3 => .p2 | 4 => .p3 | 5 => .np0 | 6 => .np1 | _ => .np3

/-- The orderings a member takes (02 R55, R62). -/
inductive OrdKind where
  | none | aqOnly | rlOnly | amo
  deriving DecidableEq, Repr

/-- The full-empty actions a member takes: loads without .FT are `loadNoFt` (02 R55, R62, R66). -/
inductive FeKind where
  | none | load | loadNoFt | store
  deriving DecidableEq, Repr

/-- What a member accepts beyond a guard (02 R62, R65 to R68). -/
structure Accept where
  form : Bool := false
  ord : OrdKind := .none
  fe : FeKind := .none
  ximm : Nat := 0
  d : Bool := false
  a : Bool := false
  b : Bool := false
  c : Bool := false
  sizes : List Nat := [0]
  types : List Nat := []
  vec : Bool := false
  maskReq : Bool := false
  typeReq : Bool := false
  deriving DecidableEq, Repr

/-- Check 5 of 02 R61: a reserved QUAL code. -/
def Chain.badQual (c : Chain) (m : Accept) : Bool :=
  c.qform = 7 || c.qord = 3 || (m.fe = .store && c.qfe = 3)

/-- Check 6 of 02 R61. -/
def Chain.badForm (c : Chain) (m : Accept) : Bool :=
  (!m.form && c.qform != 0) ||
  (match m.ord with
    | .none => c.qord != 0
    | .aqOnly => c.qord = 2
    | .rlOnly => c.qord = 2
    | .amo => false) ||
  (match m.fe with
    | .none => c.qfe != 0
    | .load => false
    | .loadNoFt => c.qfe = 3
    | .store => false)

/-- Check 8 of 02 R61. -/
def Chain.badXreg (c : Chain) (m : Accept) : Bool :=
  (!m.d && c.xd != 0) || (!m.a && c.xa != 0) || (!m.b && c.xb != 0) || (!m.c && c.xc != 0) ||
  !(m.sizes.contains c.xsize)

/-- Check 9 of 02 R61 (02 R54; 08 R255, R259, R269, R271). -/
def Chain.badExt (c : Chain) (m : Accept) : Bool :=
  if m.vec then
    c.ext / 8 > 4 || c.ext % 8 = 7 || (m.maskReq && c.ext / 8 = 0) || (m.typeReq && c.ext % 8 = 0) ||
    (c.ext % 8 != 0 && !(m.types.contains (c.ext % 8)))
  else c.ext != 0

/-- Checks 5 to 9 of 02 R61 in their order. -/
def Chain.verify (c : Chain) (m : Accept) : Option Illegal :=
  if c.badQual m then some .qualReserved
  else if c.badForm m then some .qualNotAccepted
  else if c.nX > m.ximm then some .ximmNotAccepted
  else if c.badXreg m then some .xregNotAccepted
  else if c.badExt m then some .extNotValid
  else none

/-- Verify, then check 10 on the fields that must be zero, then build. -/
def Chain.build (c : Chain) (m : Accept) (fieldsBad : Bool) (i : Instr) : Except Illegal Instr :=
  match c.verify m with
  | some r => .error r
  | none => if fieldsBad then .error .fieldNotZero else .ok i

-- One decoder per operand shape (02 R62, R65 to R68).
def decS0 (k : Op0 → Instr) (c : Chain) : Except Illegal Instr :=
  c.build {} (c.fx != 0) (k ⟨c.guard⟩)
def decN (k : Op0 → Instr) (c : Chain) : Except Illegal Instr :=
  c.build {} (c.fd != 0 || c.fa != 0 || c.fb != 0) (k ⟨c.guard⟩)
def decSX (k : OpX → Instr) (c : Chain) : Except Illegal Instr :=
  c.build {} (c.fx / 16 != 0) (k ⟨c.guard, c.rx⟩)
def decSTrap (k : OpTrap → Instr) (c : Chain) : Except Illegal Instr :=
  c.build {} false (k ⟨c.guard, c.fx⟩)
def decDAB (k : OpDAB → Instr) (c : Chain) : Except Illegal Instr :=
  c.build { d := true, a := true, b := true } false (k ⟨c.guard, c.rd, c.ra, c.rb⟩)
def decDA (k : OpDA → Instr) (c : Chain) : Except Illegal Instr :=
  c.build { d := true, a := true } (c.fb != 0) (k ⟨c.guard, c.rd, c.ra⟩)
def decAB (k : OpAB → Instr) (c : Chain) : Except Illegal Instr :=
  c.build { a := true, b := true } (c.fd != 0) (k ⟨c.guard, c.ra, c.rb⟩)
def decA (k : OpA → Instr) (c : Chain) : Except Illegal Instr :=
  c.build { a := true } (c.fd != 0 || c.fb != 0) (k ⟨c.guard, c.ra⟩)
def decD (k : OpD → Instr) (c : Chain) : Except Illegal Instr :=
  c.build { d := true } (c.fa != 0 || c.fb != 0) (k ⟨c.guard, c.rd⟩)
def decDABC (k : OpDABC → Instr) (c : Chain) : Except Illegal Instr :=
  c.build { d := true, a := true, b := true, c := true } false (k ⟨c.guard, c.rd, c.ra, c.rb, c.rc⟩)
def decDABS (k : OpDABS → Instr) (c : Chain) : Except Illegal Instr :=
  c.build { d := true, a := true, b := true, sizes := [0, 1, 2, 3] } false (k ⟨c.guard, c.size .d, c.rd, c.ra, c.rb⟩)
def decDAS (sizes : List Nat) (k : OpDAS → Instr) (c : Chain) : Except Illegal Instr :=
  c.build { d := true, a := true, sizes := sizes } (c.fb != 0) (k ⟨c.guard, c.size .d, c.rd, c.ra⟩)
def decCmp (k : OpCmp → Instr) (c : Chain) : Except Illegal Instr :=
  c.build { a := true, b := true } false (k ⟨c.guard, mkFin4 c.fd, c.fd / 4 = 1, c.ra, c.rb⟩)
def decCmpA (k : OpCmpA → Instr) (c : Chain) : Except Illegal Instr :=
  c.build { a := true } (c.fb != 0) (k ⟨c.guard, mkFin4 c.fd, c.fd / 4 = 1, c.ra⟩)
def decCmpI (k : OpCmpI → Instr) (c : Chain) : Except Illegal Instr :=
  c.build { d := true, a := true, ximm := 4 } false (k ⟨c.guard, mkFin4 c.fd, c.xd = 1, c.ra, c.simm 5 c.imm5⟩)
def decDAI (k : OpDAI → Instr) (c : Chain) : Except Illegal Instr :=
  c.build { d := true, a := true, ximm := 4 } false (k ⟨c.guard, c.rd, c.ra, c.simm 5 c.imm5⟩)
def decDAN (k : OpDAN → Instr) (c : Chain) : Except Illegal Instr :=
  c.build { d := true, a := true, ximm := 1 } false (k ⟨c.guard, c.rd, c.ra, c.uimm 5 c.imm5⟩)
def decDI (k : OpDI → Instr) (c : Chain) : Except Illegal Instr :=
  c.build { d := true, ximm := 4 } false (k ⟨c.guard, c.rd, c.simm 8 c.imm8⟩)
def decDN (k : OpDN → Instr) (c : Chain) : Except Illegal Instr :=
  c.build { d := true, ximm := 2 } false (k ⟨c.guard, c.rd, c.uimm 8 c.imm8⟩)
/-- LOOP: a length of 0 is a field failure (02 R50). -/
def decLoop (k : OpDN → Instr) (c : Chain) : Except Illegal Instr :=
  c.build { d := true, ximm := 1 } (c.uimm 8 c.imm8 = 0) (k ⟨c.guard, c.rd, c.uimm 8 c.imm8⟩)
def decLoad (k : OpLoad → Instr) (c : Chain) : Except Illegal Instr :=
  c.build { form := true, ord := .aqOnly, fe := .load, ximm := 2, d := true, a := true, sizes := [0, 1, 2, 3] } false
    (k ⟨c.guard, c.form, c.qord = 1, c.feLoad, c.size .d, c.rd, c.ra, c.simm 5 c.imm5⟩)
def decLds (k : OpLoad → Instr) (c : Chain) : Except Illegal Instr :=
  c.build { form := true, ord := .aqOnly, fe := .loadNoFt, ximm := 2, d := true, a := true, sizes := [0, 1, 2, 3] } false
    (k ⟨c.guard, c.form, c.qord = 1, c.feLoad, c.size .d, c.rd, c.ra, c.simm 5 c.imm5⟩)
def decStore (k : OpStore → Instr) (c : Chain) : Except Illegal Instr :=
  c.build { form := true, ord := .rlOnly, fe := .store, ximm := 2, d := true, a := true, sizes := [0, 1, 2, 3] } false
    (k ⟨c.guard, c.form, c.qord = 1, c.feStore, c.size .d, c.rd, c.ra, c.simm 5 c.imm5⟩)
def Chain.amoOrd (c : Chain) : AmoOrd := match c.qord with | 0 => .plain | 1 => .aq | _ => .ar
def decAmo (k : OpAmo → Instr) (c : Chain) : Except Illegal Instr :=
  c.build { form := true, ord := .amo, d := true, a := true, b := true, sizes := [0, 1] } false
    (k ⟨c.guard, c.form, c.amoOrd, c.size .d, c.rd, c.ra, c.rb⟩)
def decAmoC (k : OpAmoC → Instr) (c : Chain) : Except Illegal Instr :=
  c.build { form := true, ord := .amo, d := true, a := true, b := true, c := true, sizes := [0, 1] } false
    (k ⟨c.guard, c.form, c.amoOrd, c.size .d, c.rd, c.ra, c.rb, c.rc⟩)
def decRed (k : OpRed → Instr) (c : Chain) : Except Illegal Instr :=
  c.build { form := true, ord := .rlOnly, a := true, b := true, sizes := [0, 1] } false
    (k ⟨c.guard, c.form, c.qord = 1, c.size .d, c.ra, c.rb⟩)
/-- FP reductions: size W only, and W is the default (05 R157). -/
def decRedF (k : OpRed → Instr) (c : Chain) : Except Illegal Instr :=
  c.build { form := true, ord := .rlOnly, a := true, b := true, sizes := [0, 1] } false
    (k ⟨c.guard, c.form, c.qord = 1, .w, c.ra, c.rb⟩)
def decBr (k : OpBr → Instr) (c : Chain) : Except Illegal Instr :=
  c.build { ximm := 2 } false (k ⟨c.guard, condOf c.fd, c.simm 8 c.imm8⟩)
def decCall (k : OpCall → Instr) (c : Chain) : Except Illegal Instr :=
  c.build { ximm := 2, d := true } false (k ⟨c.guard, c.rd, c.simm 8 c.imm8⟩)
def decSpawn (k : OpSpawn → Instr) (c : Chain) : Except Illegal Instr :=
  c.build { ximm := 2 } (c.fd / 2 != 0) (k ⟨c.guard, c.fd % 2 = 1, c.simm 8 c.imm8⟩)
def decWait (k : OpWait → Instr) (c : Chain) : Except Illegal Instr :=
  c.build { form := true, d := true, a := true, b := true, sizes := [0, 1] } false
    (k ⟨c.guard, c.form, c.size .d, c.rd, c.ra, c.rb⟩)
def decWaitAny (k : OpWaitAny → Instr) (c : Chain) : Except Illegal Instr :=
  c.build { form := true, d := true, a := true, sizes := [0, 1] } (c.fb != 0)
    (k ⟨c.guard, c.form, c.size .d, c.rd, c.ra⟩)

/-- The special-register numbers of 01 R23. -/
def specialKnown (n : Nat) : Bool :=
  n ≤ 6 || (8 ≤ n && n ≤ 0x13) || (0x18 ≤ n && n ≤ 0x1B) || (0x20 ≤ n && n ≤ 0x22) || n = 0x24 || n = 0x25

/-- The privileged register numbers of 02 R75. -/
def specialPKnown (n : Nat) : Bool :=
  n = 0x40 || n = 0x41 || n = 0x48 || n = 0x49 || n = 0x50 || n = 0x51 || n = 0x58 ||
  (0x60 ≤ n && n ≤ 0x62) || n = 0x68 || (0x70 ≤ n && n ≤ 0x7F) || (0x80 ≤ n && n ≤ 0x82)

/-- Check 11 of 02 R61 follows the others. -/
def decSpecial (known : Nat → Bool) (k : OpDN → Instr) (c : Chain) : Except Illegal Instr :=
  match c.verify { d := true } with
  | some r => .error r
  | none => if known c.imm8 then .ok (k ⟨c.guard, c.rd, c.imm8⟩) else .error .specialUnknown
def decMFS (k : OpDN → Instr) (c : Chain) : Except Illegal Instr := decSpecial specialKnown k c
def decMFSP (k : OpDN → Instr) (c : Chain) : Except Illegal Instr := decSpecial specialPKnown k c
/-- MTSP of a number whose write is a row of its own decodes to that row (log 6). -/
def decMTSP (c : Chain) : Except Illegal Instr :=
  match decSpecial specialPKnown Instr.mtsp c with
  | .error r => .error r
  | .ok i =>
    if c.imm8 = 0x48 then .ok (.vshareWrite ⟨c.guard, c.rd⟩)
    else if c.imm8 = 0x50 then .ok (.dctlInstall ⟨c.guard, c.rd⟩)
    else if c.imm8 = 0x78 then .ok (.logctlInstall ⟨c.guard, c.rd⟩)
    else if c.imm8 = 0x79 then .ok (.logcmdSeam ⟨c.guard, c.rd⟩)
    else .ok i

def vAccept (ts : List Nat) (mreq treq : Bool) : Accept :=
  { vec := true, types := ts, maskReq := mreq, typeReq := treq, d := true, a := true, b := true }
def decVDAB (ts : List Nat) (mreq treq : Bool) (k : OpVDAB → Instr) (c : Chain) : Except Illegal Instr :=
  c.build (vAccept ts mreq treq) false (k ⟨c.guard, c.mask, c.elem, c.rd, c.ra, c.rb⟩)
/-- VTOPKINS: d must be even (08 R269). -/
def decVTopk (ts : List Nat) (mreq treq : Bool) (k : OpVDAB → Instr) (c : Chain) : Except Illegal Instr :=
  c.build (vAccept ts mreq treq) (c.fd % 2 = 1) (k ⟨c.guard, c.mask, c.elem, c.rd, c.ra, c.rb⟩)
def decVDABC (ts : List Nat) (mreq treq : Bool) (k : OpVDABC → Instr) (c : Chain) : Except Illegal Instr :=
  c.build { vAccept ts mreq treq with c := true } false (k ⟨c.guard, c.mask, c.elem, c.rd, c.ra, c.rb, c.rc⟩)
def decVDA (ts : List Nat) (mreq treq : Bool) (k : OpVDA → Instr) (c : Chain) : Except Illegal Instr :=
  c.build { vAccept ts mreq treq with b := false } (c.fb != 0) (k ⟨c.guard, c.mask, c.elem, c.rd, c.ra⟩)
def decVD (ts : List Nat) (mreq treq : Bool) (k : OpVD → Instr) (c : Chain) : Except Illegal Instr :=
  c.build { vAccept ts mreq treq with a := false, b := false } (c.fa != 0 || c.fb != 0)
    (k ⟨c.guard, c.mask, c.elem, c.rd⟩)
def decVCmp (ts : List Nat) (mreq treq : Bool) (k : OpVCmp → Instr) (c : Chain) : Except Illegal Instr :=
  c.build { vAccept ts mreq treq with d := false } false
    (k ⟨c.guard, c.mask, c.elem, mkFin4 c.fd, c.fd / 4 = 1, c.ra, c.rb⟩)
def decVNMask (ts : List Nat) (mreq treq : Bool) (k : OpVNMask → Instr) (c : Chain) : Except Illegal Instr :=
  c.build { vAccept ts mreq treq with d := false, b := false } (c.fd / 4 = 1 || c.fb != 0)
    (k ⟨c.guard, c.mask, c.elem, mkFin4 c.fd, c.ra⟩)
def decVLoad (ts : List Nat) (mreq treq : Bool) (k : OpVLoad → Instr) (c : Chain) : Except Illegal Instr :=
  c.build { vAccept ts mreq treq with b := false, form := true, ord := .aqOnly, fe := .loadNoFt, ximm := 1 } false
    (k ⟨c.guard, c.mask, c.elem, c.form, c.qord = 1, c.feLoad, c.rd, c.ra, c.simm 5 c.imm5⟩)
def decVStore (ts : List Nat) (mreq treq : Bool) (k : OpVStore → Instr) (c : Chain) : Except Illegal Instr :=
  c.build { vAccept ts mreq treq with b := false, form := true, ord := .rlOnly, fe := .store, ximm := 1 } false
    (k ⟨c.guard, c.mask, c.elem, c.form, c.qord = 1, c.feStore, c.rd, c.ra, c.simm 5 c.imm5⟩)
def decVLoadB (ts : List Nat) (mreq treq : Bool) (k : OpVLoadB → Instr) (c : Chain) : Except Illegal Instr :=
  c.build { vAccept ts mreq treq with form := true, ord := .aqOnly, fe := .loadNoFt } false
    (k ⟨c.guard, c.mask, c.elem, c.form, c.qord = 1, c.feLoad, c.rd, c.ra, c.rb⟩)
def decVStoreB (ts : List Nat) (mreq treq : Bool) (k : OpVStoreB → Instr) (c : Chain) : Except Illegal Instr :=
  c.build { vAccept ts mreq treq with form := true, ord := .rlOnly, fe := .store } false
    (k ⟨c.guard, c.mask, c.elem, c.form, c.qord = 1, c.feStore, c.rd, c.ra, c.rb⟩)
def decVLane (ts : List Nat) (mreq treq : Bool) (k : OpVLane → Instr) (c : Chain) : Except Illegal Instr :=
  c.build { vAccept ts mreq treq with form := true } false
    (k ⟨c.guard, c.mask, c.elem, c.form, c.rd, c.ra, c.rb⟩)

def page0Part0 : List (Nat × (Chain → Except Illegal Instr)) :=
  [(0, decDAB .add),
   (1, decDAB .sub),
   (2, decDAB .and),
   (3, decDAB .or),
   (64, decDAB .xor),
   (65, decDAB .shl),
   (66, decDAB .shr),
   (67, decDAB .sar),
   (128, decDAB .mul),
   (129, decDAB .mulhu),
   (130, decDAB .min),
   (131, decDAB .max),
   (192, decDA .mov),
   (193, decDA .not),
   (194, decDA .neg),
   (195, decDABS .lea),
   (256, decCmp .cmpeq),
   (257, decCmp .cmpne),
   (258, decCmp .cmplt),
   (259, decCmp .cmpltu),
   (320, decDAI .addi),
   (384, decDAN .shli),
   (448, decDAN .shri),
   (512, decDAN .sari)]

def page0Part1 : List (Nat × (Chain → Except Illegal Instr)) :=
  [(576, decCmpI .cmpeqi),
   (577, decCmpI .cmplti),
   (640, decDI .movi),
   (704, decDN .movhi),
   (768, decLoad .ld),
   (832, decLoad .ldu),
   (896, decStore .st),
   (960, decLds .lds),
   (1024, decAmo .amoSwap),
   (1025, decAmoC .amoCas),
   (1026, decAmo .amoAdd),
   (1027, decAmo .amoMax),
   (1088, decRed .redAdd),
   (1089, decRed .redAnd),
   (1090, decRed .redOr),
   (1091, decRed .redXor),
   (1092, decRed .redMin),
   (1093, decRed .redMax),
   (1094, decRed .redMinu),
   (1095, decRed .redMaxu),
   (1096, decRedF .redFadd),
   (1097, decRedF .redFmax),
   (1098, decRedF .redFmin),
   (1152, decBr .br)]

def page0Part2 : List (Nat × (Chain → Except Illegal Instr)) :=
  [(1216, decCall .call),
   (1280, decA .jr),
   (1281, decDA .jalr),
   (1344, decLoop .loop),
   (1408, decSpawn .spawn),
   (1472, decWait .waiteq),
   (1473, decWait .waitne),
   (1474, decWait .waitge),
   (1475, decWaitAny .waitany),
   (1536, decA .fwait),
   (1537, decA .ftest),
   (1538, decA .fcancel),
   (1539, decDA .fstatus),
   (1600, decS0 .nop),
   (1601, decS0 .exit),
   (1602, decS0 .join),
   (1603, decS0 .yield),
   (1604, decS0 .brkl),
   (1605, decSX .fenceCore),
   (1606, decSX .fenceClus),
   (1607, decSX .fencePart),
   (1608, decSX .fenceFab),
   (1609, decSX .fenceSys),
   (1610, decSTrap .trap)]

def page0Part3 : List (Nat × (Chain → Except Illegal Instr)) :=
  [(1611, decS0 .pin),
   (1612, decS0 .unpin)]

/-- The opcode map of page 0, by key (02 R62 to R68). -/
def page0Table : List (Nat × (Chain → Except Illegal Instr)) :=
  page0Part0 ++ page0Part1 ++ page0Part2 ++ page0Part3

def page1Part0 : List (Nat × (Chain → Except Illegal Instr)) :=
  [(0, decDAB .div),
   (1, decDAB .divu),
   (2, decDAB .rem),
   (3, decDAB .remu),
   (64, decDAB .minu),
   (65, decDAB .maxu),
   (66, decDAB .rotl),
   (67, decDAB .rotr),
   (128, decDA .popc),
   (129, decDA .clz),
   (130, decDA .ctz),
   (131, decDA .brev),
   (192, decDAB .bfx),
   (193, decDAB .bfi),
   (194, decDAS [0, 1, 2] .bswap),
   (195, decDAS [1, 2, 3] .sext),
   (256, decDAB .fadd),
   (257, decDAB .fsub),
   (258, decDAB .fmul),
   (259, decDAB .fdiv),
   (320, decDAB .fmin),
   (321, decDAB .fmax),
   (322, decDA .fsqrt),
   (323, decDA .fabs)]

def page1Part1 : List (Nat × (Chain → Except Illegal Instr)) :=
  [(384, decDABC .fma),
   (385, decDABC .fms),
   (386, decDABC .fnma),
   (387, decDABC .fnms),
   (448, decCmp .fcmpeq),
   (449, decCmp .fcmplt),
   (450, decCmp .fcmple),
   (451, decCmp .fcmpun),
   (512, decDA .cvtif),
   (513, decDA .cvtfi),
   (514, decDA .cvtfb),
   (515, decDA .cvtbf),
   (576, decDA .cvtf8),
   (577, decDA .cvt8f),
   (578, decDA .cvtf6),
   (579, decDA .cvt6f),
   (640, decCmpA .vntest),
   (641, decDAB .vnrep),
   (642, decDA .vninfo),
   (704, decDA .fneg),
   (705, decDA .fclass),
   (768, decMFS .mfs),
   (832, decMFS .mts)]

/-- The opcode map of page 1, by key (02 R62 to R68). -/
def page1Table : List (Nat × (Chain → Except Illegal Instr)) :=
  page1Part0 ++ page1Part1

def page2Part0 : List (Nat × (Chain → Except Illegal Instr)) :=
  [(0, decVDAB [1, 2, 3, 6] false false .vadd),
   (1, decVDAB [1, 2, 3, 6] false false .vsub),
   (2, decVDAB [1, 2, 3, 6] false false .vmul),
   (3, decVDAB [1, 2, 3] false false .vdiv),
   (64, decVDAB [1, 2, 3, 6] false false .vmin),
   (65, decVDAB [1, 2, 3, 6] false false .vmax),
   (66, decVDAB [1, 2, 3, 4, 5, 6] false false .vand),
   (67, decVDAB [1, 2, 3, 4, 5, 6] false false .vor),
   (128, decVDAB [1, 2, 3, 4, 5, 6] false false .vxor),
   (129, decVDAB [1, 6] false false .vshl),
   (130, decVDAB [1, 6] false false .vshr),
   (131, decVDAB [1, 6] false false .vsar),
   (192, decVDABC [2, 3] false false .vfma),
   (193, decVDABC [2, 3] false false .vfms),
   (194, decVDAB [1, 2, 3, 6] false false .vabsd),
   (195, decVDAB [1, 2, 3] false false .vsqd),
   (256, decVDAB [1, 2, 3, 6] false false .vadds),
   (257, decVDAB [1, 2, 3, 6] false false .vmuls),
   (258, decVDAB [1, 2, 3, 6] false false .vmaxs),
   (259, decVDA [1, 2, 3, 4, 5, 6] false false .vsplat),
   (320, decVCmp [1, 2, 3, 6] false false .vcmpeq),
   (321, decVCmp [1, 2, 3, 6] false false .vcmpne),
   (322, decVCmp [1, 2, 3, 6] false false .vcmplt),
   (323, decVCmp [1, 2, 3, 6] false false .vcmple)]

def page2Part1 : List (Nat × (Chain → Except Illegal Instr)) :=
  [(384, decVDAB [1, 2, 3, 4, 5, 6] true false .vsel),
   (385, decVDA [1, 2, 3, 4, 5, 6] false false .vmov),
   (386, decVDA [1, 2, 3, 6] false false .vneg),
   (387, decVDA [1, 2, 3, 6] false false .vabs),
   (448, decVDA [1, 2, 3] false false .vredsum),
   (449, decVDA [1, 2, 3, 6] false false .vredmax),
   (450, decVDA [1, 2, 3, 6] false false .vredmin),
   (451, decVDA [1, 2, 3, 6] false false .vredarg),
   (512, decVDA [1, 2, 3, 4, 5, 6] false true .vcvt),
   (513, decVDA [4, 5] false false .vscale),
   (514, decVD [1, 6] false false .viota),
   (515, decVDA [1, 2, 3, 4, 5, 6] true false .vcomp),
   (576, decVLoad [1, 2, 3, 4, 6] false false .vld),
   (640, decVStore [1, 2, 3, 4, 6] false false .vst),
   (704, decVLoadB [1, 2, 3, 4, 6] false false .vlds),
   (705, decVStoreB [1, 2, 3, 4, 6] false false .vsts),
   (706, decVLoadB [4, 5] false false .vldb),
   (707, decVStoreB [4, 5] false false .vstb),
   (768, decVLane [1, 2, 3, 4, 6] false false .vgath),
   (769, decVLane [1, 2, 3, 4, 6] false false .vscat),
   (770, decVLane [1, 2] false false .vscatadd),
   (771, decVLane [1, 2] false false .vscatmax),
   (832, decVTopk [2] true false .vtopkins),
   (833, decVDA [2] false false .vtopkthr)]

def page2Part2 : List (Nat × (Chain → Except Illegal Instr)) :=
  [(834, decVNMask [2] false false .vnmask),
   (835, decVDAB [2] false false .vnrepv),
   (896, decS0 .vbind),
   (897, decS0 .vfree),
   (898, decSX .vsetl),
   (899, decSX .vgetl),
   (900, decS0 .vwait),
   (901, decSX .vpixrd)]

/-- The opcode map of page 2, by key (02 R62 to R68). -/
def page2Table : List (Nat × (Chain → Except Illegal Instr)) :=
  page2Part0 ++ page2Part1 ++ page2Part2

def page3Part0 : List (Nat × (Chain → Except Illegal Instr)) :=
  [(0, decDAB .rclaim),
   (1, decAB .rpub),
   (2, decAB .rpop),
   (3, decDAB .rpeek),
   (64, decDAB .rwaitf),
   (65, decDAB .rwaite),
   (66, decDA .rstat),
   (67, decAB .rcfg),
   (128, decDAB .rapp),
   (129, decDA .rsteal),
   (130, decDA .rpopt),
   (131, decDA .rcred),
   (192, decA .qbind),
   (193, decN .qfree),
   (256, decDA .copy),
   (257, decAB .bcset),
   (258, decDAB .bcwait),
   (320, decDA .mtask),
   (321, decAB .mprog),
   (322, decA .mthr),
   (323, decDA .mquery)]

/-- The opcode map of page 3, by key (02 R62 to R68). -/
def page3Table : List (Nat × (Chain → Except Illegal Instr)) :=
  page3Part0

def page4Part0 : List (Nat × (Chain → Except Illegal Instr)) :=
  [(0, decD .barc),
   (1, decDA .barg),
   (2, decA .barga),
   (3, decDAB .bargw),
   (64, decDAB .wsum),
   (65, decDAB .wmax),
   (66, decDAB .wmin),
   (67, decDAB .wor),
   (128, decDA .launch),
   (129, decDA .lstat),
   (192, decSX .tsc),
   (193, decSX .whereAt),
   (194, decSX .lnum),
   (195, decSX .ganginfo),
   (196, decSX .crewinfo),
   (197, decSX .feat),
   (198, decSX .seam)]

/-- The opcode map of page 4, by key (02 R62 to R68). -/
def page4Table : List (Nat × (Chain → Except Illegal Instr)) :=
  page4Part0

def page5Part0 : List (Nat × (Chain → Except Illegal Instr)) :=
  [(0, decMFSP .mfsp),
   (64, decMTSP),
   (128, decDAB .invr),
   (129, decA .inva),
   (130, decAB .icinv),
   (192, decN .trapret),
   (193, decAB .reinj),
   (194, decA .ctxsave),
   (195, decA .ctxload),
   (256, decDA .quiesceHold),
   (257, decDA .partset),
   (258, decDA .wswitch),
   (259, decN .halt),
   (320, decDA .ctrrd),
   (321, decAB .ctrcfg),
   (322, decA .ctrsave),
   (323, decA .ctrload),
   (384, decAB .mirset),
   (385, decAB .mirsync),
   (386, decAB .retire)]

/-- The opcode map of page 5, by key (02 R62 to R68). -/
def page5Table : List (Nat × (Chain → Except Illegal Instr)) :=
  page5Part0

/-- The selector that, with the major, picks the member: the sub of an S word, the RED operation, CMPEQI's d[2], the
fn of an RRR word, and 0 for the formats whose major names the member alone (02 R47, R62 to R68). -/
def Chain.sel (c : Chain) : Nat :=
  match c.pageNo, c.major with
  | 0, 5 | 0, 6 | 0, 7 | 0, 8 | 0, 10 | 0, 11 | 0, 12 | 0, 13 | 0, 14 | 0, 15 | 0, 18 | 0, 19 | 0, 21 | 0, 22 => 0
  | 0, 9 => c.fd / 4
  | 0, 17 => 4 * c.fd + c.fn
  | 0, 25 | 2, 14 | 4, 3 => c.sub
  | 1, 12 | 1, 13 | 2, 9 | 2, 10 | 5, 0 | 5, 1 => 0
  | _, _ => c.fn

/-- The member's key in the opcode map of its page. -/
def Chain.key (c : Chain) : Nat := c.major * 64 + c.sel

/-- The members of a page by key (02 R62 to R68). -/
def pageTable : Nat → List (Nat × (Chain → Except Illegal Instr))
  | 0 => page0Table
  | 1 => page1Table
  | 2 => page2Table
  | 3 => page3Table
  | 4 => page4Table
  | 5 => page5Table
  | _ => []

/-- Decode one instruction from halfwords in memory order: the instruction and its length in halfwords (02 R61). -/
def decodeHalves (hs : List Nat) : Except Illegal (Instr × Nat) :=
  match gatherChain hs Chain.start with
  | .error r => .error r
  | .ok c =>
    if c.dup then .error .repeatedPrefix
    else if c.page.isSome && (c.pageNo = 0 || c.pageNo > 5) then .error .pageUnassigned
    else match List.lookup c.key (pageTable c.pageNo) with
      | none => .error .opUnassigned
      | some f =>
        match f c with
        | .error r => .error r
        | .ok i => .ok (i, c.len)

-- The encoder.

def Guard.code : Guard → Nat
  | .none => 0 | .p0 => 1 | .p1 => 2 | .p2 => 3 | .p3 => 4 | .np0 => 5 | .np1 => 6 | .np2 => 7
def Form.code : Form → Nat
  | .va => 0 | .stay => 1 | .go => 2 | .loc => 3 | .rel => 4 | .ln => 5 | .phys => 6
def AmoOrd.code : AmoOrd → Nat
  | .plain => 0 | .aq => 1 | .ar => 2
def FeLoad.code : FeLoad → Nat
  | .none => 0 | .fe => 1 | .fec => 2 | .ft => 3
def FeStore.code : FeStore → Nat
  | .none => 0 | .ff => 1 | .ef => 2
def Cond.code : Cond → Nat
  | .alw => 0 | .p0 => 1 | .p1 => 2 | .p2 => 3 | .p3 => 4 | .np0 => 5 | .np1 => 6 | .np3 => 7
/-- The size code, for a member whose default is doubleword. -/
def Size.code : Size → Nat
  | .d => 0 | .w => 1 | .h => 2 | .b => 3
def Elem.code : Elem → Nat
  | .i32 => 1 | .f32 => 2 | .bf16 => 3 | .t8 => 4 | .t6 => 5 | .i8 => 6
def extCode (m : Option (Fin 4)) (t : Option Elem) : Nat :=
  8 * (match m with | none => 0 | some k => k.val + 1) + (match t with | none => 0 | some e => e.code)
def bit (b : Bool) : Nat := if b then 1 else 0
def qualOf (g : Guard) (form ord fe : Nat) : Nat := 128 * g.code + 16 * form + 4 * ord + fe
/-- XREG's payload (02 R51). -/
def xregOf (d a b c size : Nat) : Nat := 512 * d + 256 * a + 128 * b + 8 * c + size
def lo3 (r : Reg) : Nat := r.val % 8
def hi1 (r : Reg) : Nat := r.val / 8

/-- The 10-bit digits of an immediate's upper part, most significant first (02 R52). -/
def ximmDigits : Nat → Nat → List Nat
  | 0, _ => []
  | n + 1, u => (u / 1024 ^ n % 1024) :: ximmDigits n u

/-- A prefix word is emitted only when one of its fields is non-zero (02 R77). -/
def prefixIf (base payload : Nat) : List Nat := if payload = 0 then [] else [base + payload]

/-- The chain in the order of 02 R77: QUAL, PAGE, XREG, XIMM words, instruction word. -/
def chainOf (qual page xreg : Nat) (ximm : List Nat) (word : Nat) : List Nat :=
  prefixIf 0xFC00 qual ++ prefixIf 0xF800 page ++ prefixIf 0xF400 xreg ++ ximm.map (0xF000 + ·) ++ [word]

def rrr (major d a b fn : Nat) : Nat := 2048 * major + 256 * d + 32 * a + 4 * b + fn
def sWord (major sub x : Nat) : Nat := 2048 * major + 32 * sub + x
def i8Word (major d imm : Nat) : Nat := 2048 * major + 256 * d + imm
def rriWord (major d a imm : Nat) : Nat := 2048 * major + 256 * d + 32 * a + imm

/-- A signed immediate as its XIMM words and its base field, with the fewest words (02 R52, R77). -/
def splitS (base : Nat) (imm : Int) : List Nat × Nat :=
  let n := ximmS base imm
  let u := (imm % (2 ^ (base + 10 * n) : Nat)).toNat
  (ximmDigits n (u / 2 ^ base), u % 2 ^ base)
def splitU (base : Nat) (imm : Nat) : List Nat × Nat :=
  let n := ximmU base imm
  (ximmDigits n (imm / 2 ^ base), imm % 2 ^ base)

def encS0 (page major sub : Nat) (o : Op0) : List Nat :=
  chainOf (qualOf o.g 0 0 0) (64 * page) 0 [] (sWord major sub 0)
def encN (page major fn : Nat) (o : Op0) : List Nat :=
  chainOf (qualOf o.g 0 0 0) (64 * page) 0 [] (rrr major 0 0 0 fn)
def encSX (page major sub : Nat) (o : OpX) : List Nat :=
  chainOf (qualOf o.g 0 0 0) (64 * page) 0 [] (sWord major sub o.x.val)
def encSTrap (page major sub : Nat) (o : OpTrap) : List Nat :=
  chainOf (qualOf o.g 0 0 0) (64 * page) 0 [] (sWord major sub o.code)
def encDAB (page major fn : Nat) (o : OpDAB) : List Nat :=
  chainOf (qualOf o.g 0 0 0) (64 * page) (xregOf (hi1 o.d) (hi1 o.a) (hi1 o.b) 0 0) []
    (rrr major (lo3 o.d) (lo3 o.a) (lo3 o.b) fn)
def encDA (page major fn : Nat) (o : OpDA) : List Nat :=
  chainOf (qualOf o.g 0 0 0) (64 * page) (xregOf (hi1 o.d) (hi1 o.a) 0 0 0) [] (rrr major (lo3 o.d) (lo3 o.a) 0 fn)
def encAB (page major fn : Nat) (o : OpAB) : List Nat :=
  chainOf (qualOf o.g 0 0 0) (64 * page) (xregOf 0 (hi1 o.a) (hi1 o.b) 0 0) [] (rrr major 0 (lo3 o.a) (lo3 o.b) fn)
def encA (page major fn : Nat) (o : OpA) : List Nat :=
  chainOf (qualOf o.g 0 0 0) (64 * page) (xregOf 0 (hi1 o.a) 0 0 0) [] (rrr major 0 (lo3 o.a) 0 fn)
def encD (page major fn : Nat) (o : OpD) : List Nat :=
  chainOf (qualOf o.g 0 0 0) (64 * page) (xregOf (hi1 o.d) 0 0 0 0) [] (rrr major (lo3 o.d) 0 0 fn)
/-- Register c's field: 0 when c is d (02 R53). -/
def cField (d c : Reg) : Nat := if c = d then 0 else c.val
def encDABC (page major fn : Nat) (o : OpDABC) : List Nat :=
  chainOf (qualOf o.g 0 0 0) (64 * page) (xregOf (hi1 o.d) (hi1 o.a) (hi1 o.b) (cField o.d o.c) 0) []
    (rrr major (lo3 o.d) (lo3 o.a) (lo3 o.b) fn)
def encDABS (page major fn : Nat) (o : OpDABS) : List Nat :=
  chainOf (qualOf o.g 0 0 0) (64 * page) (xregOf (hi1 o.d) (hi1 o.a) (hi1 o.b) 0 o.size.code) []
    (rrr major (lo3 o.d) (lo3 o.a) (lo3 o.b) fn)
def encDAS (page major fn : Nat) (o : OpDAS) : List Nat :=
  chainOf (qualOf o.g 0 0 0) (64 * page) (xregOf (hi1 o.d) (hi1 o.a) 0 0 o.size.code) []
    (rrr major (lo3 o.d) (lo3 o.a) 0 fn)
def encCmp (page major fn : Nat) (o : OpCmp) : List Nat :=
  chainOf (qualOf o.g 0 0 0) (64 * page) (xregOf 0 (hi1 o.a) (hi1 o.b) 0 0) []
    (rrr major (o.p.val + 4 * bit o.conj) (lo3 o.a) (lo3 o.b) fn)
def encCmpA (page major fn : Nat) (o : OpCmpA) : List Nat :=
  chainOf (qualOf o.g 0 0 0) (64 * page) (xregOf 0 (hi1 o.a) 0 0 0) []
    (rrr major (o.p.val + 4 * bit o.conj) (lo3 o.a) 0 fn)
def encCmpI (page major sel : Nat) (o : OpCmpI) : List Nat :=
  chainOf (qualOf o.g 0 0 0) (64 * page) (xregOf (bit o.conj) (hi1 o.a) 0 0 0) (splitS 5 o.imm).1
    (rriWord major (o.p.val + 4 * sel) (lo3 o.a) (splitS 5 o.imm).2)
def encDAI (page major _sel : Nat) (o : OpDAI) : List Nat :=
  chainOf (qualOf o.g 0 0 0) (64 * page) (xregOf (hi1 o.d) (hi1 o.a) 0 0 0) (splitS 5 o.imm).1
    (rriWord major (lo3 o.d) (lo3 o.a) (splitS 5 o.imm).2)
def encDAN (page major _sel : Nat) (o : OpDAN) : List Nat :=
  chainOf (qualOf o.g 0 0 0) (64 * page) (xregOf (hi1 o.d) (hi1 o.a) 0 0 0) (splitU 5 o.n).1
    (rriWord major (lo3 o.d) (lo3 o.a) (splitU 5 o.n).2)
def encDI (page major _sel : Nat) (o : OpDI) : List Nat :=
  chainOf (qualOf o.g 0 0 0) (64 * page) (xregOf (hi1 o.d) 0 0 0 0) (splitS 8 o.imm).1
    (i8Word major (lo3 o.d) (splitS 8 o.imm).2)
def encDN (page major _sel : Nat) (o : OpDN) : List Nat :=
  chainOf (qualOf o.g 0 0 0) (64 * page) (xregOf (hi1 o.d) 0 0 0 0) (splitU 8 o.n).1
    (i8Word major (lo3 o.d) (splitU 8 o.n).2)
def encLoop (page major sel : Nat) (o : OpDN) : List Nat := encDN page major sel o
def encMFS (page major sel : Nat) (o : OpDN) : List Nat := encDN page major sel o
def encMFSP (page major sel : Nat) (o : OpDN) : List Nat := encDN page major sel o
def encMTSP (page major sel : Nat) (o : OpDN) : List Nat := encDN page major sel o
def encLoad (page major _sel : Nat) (o : OpLoad) : List Nat :=
  chainOf (qualOf o.g o.form.code (bit o.aq) o.fe.code) (64 * page) (xregOf (hi1 o.d) (hi1 o.a) 0 0 o.size.code)
    (splitS 5 o.imm).1 (rriWord major (lo3 o.d) (lo3 o.a) (splitS 5 o.imm).2)
def encLds (page major sel : Nat) (o : OpLoad) : List Nat := encLoad page major sel o
def encStore (page major _sel : Nat) (o : OpStore) : List Nat :=
  chainOf (qualOf o.g o.form.code (bit o.rl) o.fe.code) (64 * page) (xregOf (hi1 o.d) (hi1 o.a) 0 0 o.size.code)
    (splitS 5 o.imm).1 (rriWord major (lo3 o.d) (lo3 o.a) (splitS 5 o.imm).2)
def encAmo (page major fn : Nat) (o : OpAmo) : List Nat :=
  chainOf (qualOf o.g o.form.code o.ord.code 0) (64 * page) (xregOf (hi1 o.d) (hi1 o.a) (hi1 o.b) 0 o.size.code) []
    (rrr major (lo3 o.d) (lo3 o.a) (lo3 o.b) fn)
def encAmoC (page major fn : Nat) (o : OpAmoC) : List Nat :=
  chainOf (qualOf o.g o.form.code o.ord.code 0) (64 * page)
    (xregOf (hi1 o.d) (hi1 o.a) (hi1 o.b) (cField o.d o.c) o.size.code) []
    (rrr major (lo3 o.d) (lo3 o.a) (lo3 o.b) fn)
def encRed (page major op : Nat) (o : OpRed) : List Nat :=
  chainOf (qualOf o.g o.form.code (bit o.rl) 0) (64 * page) (xregOf 0 (hi1 o.a) (hi1 o.b) 0 o.size.code) []
    (rrr major (op / 4) (lo3 o.a) (lo3 o.b) (op % 4))
/-- FP reductions need no size code (05 R157). -/
def encRedF (page major op : Nat) (o : OpRed) : List Nat :=
  chainOf (qualOf o.g o.form.code (bit o.rl) 0) (64 * page) (xregOf 0 (hi1 o.a) (hi1 o.b) 0 0) []
    (rrr major (op / 4) (lo3 o.a) (lo3 o.b) (op % 4))
def encBr (page major _sel : Nat) (o : OpBr) : List Nat :=
  chainOf (qualOf o.g 0 0 0) (64 * page) 0 (splitS 8 o.disp).1 (i8Word major o.cond.code (splitS 8 o.disp).2)
def encCall (page major _sel : Nat) (o : OpCall) : List Nat :=
  chainOf (qualOf o.g 0 0 0) (64 * page) (xregOf (hi1 o.c) 0 0 0 0) (splitS 8 o.disp).1
    (i8Word major (lo3 o.c) (splitS 8 o.disp).2)
def encSpawn (page major _sel : Nat) (o : OpSpawn) : List Nat :=
  chainOf (qualOf o.g 0 0 0) (64 * page) 0 (splitS 8 o.disp).1 (i8Word major (bit o.heavy) (splitS 8 o.disp).2)
def encWait (page major fn : Nat) (o : OpWait) : List Nat :=
  chainOf (qualOf o.g o.form.code 0 0) (64 * page) (xregOf (hi1 o.d) (hi1 o.a) (hi1 o.b) 0 o.size.code) []
    (rrr major (lo3 o.d) (lo3 o.a) (lo3 o.b) fn)
def encWaitAny (page major fn : Nat) (o : OpWaitAny) : List Nat :=
  chainOf (qualOf o.g o.form.code 0 0) (64 * page) (xregOf (hi1 o.d) (hi1 o.a) 0 0 o.size.code) []
    (rrr major (lo3 o.d) (lo3 o.a) 0 fn)
def encVDAB (page major fn : Nat) (o : OpVDAB) : List Nat :=
  chainOf (qualOf o.g 0 0 0) (64 * page + extCode o.m o.t) (xregOf (hi1 o.d) (hi1 o.a) (hi1 o.b) 0 0) []
    (rrr major (lo3 o.d) (lo3 o.a) (lo3 o.b) fn)
def encVTopk (page major fn : Nat) (o : OpVDAB) : List Nat := encVDAB page major fn o
def encVDABC (page major fn : Nat) (o : OpVDABC) : List Nat :=
  chainOf (qualOf o.g 0 0 0) (64 * page + extCode o.m o.t)
    (xregOf (hi1 o.d) (hi1 o.a) (hi1 o.b) (cField o.d o.c) 0) []
    (rrr major (lo3 o.d) (lo3 o.a) (lo3 o.b) fn)
def encVDA (page major fn : Nat) (o : OpVDA) : List Nat :=
  chainOf (qualOf o.g 0 0 0) (64 * page + extCode o.m o.t) (xregOf (hi1 o.d) (hi1 o.a) 0 0 0) []
    (rrr major (lo3 o.d) (lo3 o.a) 0 fn)
def encVD (page major fn : Nat) (o : OpVD) : List Nat :=
  chainOf (qualOf o.g 0 0 0) (64 * page + extCode o.m o.t) (xregOf (hi1 o.d) 0 0 0 0) [] (rrr major (lo3 o.d) 0 0 fn)
def encVCmp (page major fn : Nat) (o : OpVCmp) : List Nat :=
  chainOf (qualOf o.g 0 0 0) (64 * page + extCode o.m o.t) (xregOf 0 (hi1 o.a) (hi1 o.b) 0 0) []
    (rrr major (o.k.val + 4 * bit o.conj) (lo3 o.a) (lo3 o.b) fn)
def encVNMask (page major fn : Nat) (o : OpVNMask) : List Nat :=
  chainOf (qualOf o.g 0 0 0) (64 * page + extCode o.m o.t) (xregOf 0 (hi1 o.a) 0 0 0) []
    (rrr major o.k.val (lo3 o.a) 0 fn)
def encVLoad (page major _sel : Nat) (o : OpVLoad) : List Nat :=
  chainOf (qualOf o.g o.form.code (bit o.aq) o.fe.code) (64 * page + extCode o.m o.t)
    (xregOf (hi1 o.d) (hi1 o.a) 0 0 0) (splitS 5 o.imm).1 (rriWord major (lo3 o.d) (lo3 o.a) (splitS 5 o.imm).2)
def encVStore (page major _sel : Nat) (o : OpVStore) : List Nat :=
  chainOf (qualOf o.g o.form.code (bit o.rl) o.fe.code) (64 * page + extCode o.m o.t)
    (xregOf (hi1 o.d) (hi1 o.a) 0 0 0) (splitS 5 o.imm).1 (rriWord major (lo3 o.d) (lo3 o.a) (splitS 5 o.imm).2)
def encVLoadB (page major fn : Nat) (o : OpVLoadB) : List Nat :=
  chainOf (qualOf o.g o.form.code (bit o.aq) o.fe.code) (64 * page + extCode o.m o.t)
    (xregOf (hi1 o.d) (hi1 o.a) (hi1 o.b) 0 0) [] (rrr major (lo3 o.d) (lo3 o.a) (lo3 o.b) fn)
def encVStoreB (page major fn : Nat) (o : OpVStoreB) : List Nat :=
  chainOf (qualOf o.g o.form.code (bit o.rl) o.fe.code) (64 * page + extCode o.m o.t)
    (xregOf (hi1 o.d) (hi1 o.a) (hi1 o.b) 0 0) [] (rrr major (lo3 o.d) (lo3 o.a) (lo3 o.b) fn)
def encVLane (page major fn : Nat) (o : OpVLane) : List Nat :=
  chainOf (qualOf o.g o.form.code 0 0) (64 * page + extCode o.m o.t) (xregOf (hi1 o.d) (hi1 o.a) (hi1 o.b) 0 0) []
    (rrr major (lo3 o.d) (lo3 o.a) (lo3 o.b) fn)

/-- The halfwords of an instruction in memory order (02 R77); none for a step that has no words. -/
def encode : Instr → Option (List Nat)
  | .add o => some (encDAB 0 0 0 o)
  | .sub o => some (encDAB 0 0 1 o)
  | .and o => some (encDAB 0 0 2 o)
  | .or o => some (encDAB 0 0 3 o)
  | .xor o => some (encDAB 0 1 0 o)
  | .shl o => some (encDAB 0 1 1 o)
  | .shr o => some (encDAB 0 1 2 o)
  | .sar o => some (encDAB 0 1 3 o)
  | .mul o => some (encDAB 0 2 0 o)
  | .mulhu o => some (encDAB 0 2 1 o)
  | .min o => some (encDAB 0 2 2 o)
  | .max o => some (encDAB 0 2 3 o)
  | .mov o => some (encDA 0 3 0 o)
  | .not o => some (encDA 0 3 1 o)
  | .neg o => some (encDA 0 3 2 o)
  | .lea o => some (encDABS 0 3 3 o)
  | .cmpeq o => some (encCmp 0 4 0 o)
  | .cmpne o => some (encCmp 0 4 1 o)
  | .cmplt o => some (encCmp 0 4 2 o)
  | .cmpltu o => some (encCmp 0 4 3 o)
  | .addi o => some (encDAI 0 5 0 o)
  | .shli o => some (encDAN 0 6 0 o)
  | .shri o => some (encDAN 0 7 0 o)
  | .sari o => some (encDAN 0 8 0 o)
  | .cmpeqi o => some (encCmpI 0 9 0 o)
  | .cmplti o => some (encCmpI 0 9 1 o)
  | .movi o => some (encDI 0 10 0 o)
  | .movhi o => some (encDN 0 11 0 o)
  | .ld o => some (encLoad 0 12 0 o)
  | .ldu o => some (encLoad 0 13 0 o)
  | .st o => some (encStore 0 14 0 o)
  | .lds o => some (encLds 0 15 0 o)
  | .amoSwap o => some (encAmo 0 16 0 o)
  | .amoCas o => some (encAmoC 0 16 1 o)
  | .amoAdd o => some (encAmo 0 16 2 o)
  | .amoMax o => some (encAmo 0 16 3 o)
  | .redAdd o => some (encRed 0 17 0 o)
  | .redAnd o => some (encRed 0 17 1 o)
  | .redOr o => some (encRed 0 17 2 o)
  | .redXor o => some (encRed 0 17 3 o)
  | .redMin o => some (encRed 0 17 4 o)
  | .redMax o => some (encRed 0 17 5 o)
  | .redMinu o => some (encRed 0 17 6 o)
  | .redMaxu o => some (encRed 0 17 7 o)
  | .redFadd o => some (encRedF 0 17 8 o)
  | .redFmax o => some (encRedF 0 17 9 o)
  | .redFmin o => some (encRedF 0 17 10 o)
  | .br o => some (encBr 0 18 0 o)
  | .call o => some (encCall 0 19 0 o)
  | .jr o => some (encA 0 20 0 o)
  | .jalr o => some (encDA 0 20 1 o)
  | .loop o => some (encLoop 0 21 0 o)
  | .spawn o => some (encSpawn 0 22 0 o)
  | .waiteq o => some (encWait 0 23 0 o)
  | .waitne o => some (encWait 0 23 1 o)
  | .waitge o => some (encWait 0 23 2 o)
  | .waitany o => some (encWaitAny 0 23 3 o)
  | .fwait o => some (encA 0 24 0 o)
  | .ftest o => some (encA 0 24 1 o)
  | .fcancel o => some (encA 0 24 2 o)
  | .fstatus o => some (encDA 0 24 3 o)
  | .nop o => some (encS0 0 25 0 o)
  | .exit o => some (encS0 0 25 1 o)
  | .join o => some (encS0 0 25 2 o)
  | .yield o => some (encS0 0 25 3 o)
  | .brkl o => some (encS0 0 25 4 o)
  | .fenceCore o => some (encSX 0 25 5 o)
  | .fenceClus o => some (encSX 0 25 6 o)
  | .fencePart o => some (encSX 0 25 7 o)
  | .fenceFab o => some (encSX 0 25 8 o)
  | .fenceSys o => some (encSX 0 25 9 o)
  | .trap o => some (encSTrap 0 25 10 o)
  | .pin o => some (encS0 0 25 11 o)
  | .unpin o => some (encS0 0 25 12 o)
  | .div o => some (encDAB 1 0 0 o)
  | .divu o => some (encDAB 1 0 1 o)
  | .rem o => some (encDAB 1 0 2 o)
  | .remu o => some (encDAB 1 0 3 o)
  | .minu o => some (encDAB 1 1 0 o)
  | .maxu o => some (encDAB 1 1 1 o)
  | .rotl o => some (encDAB 1 1 2 o)
  | .rotr o => some (encDAB 1 1 3 o)
  | .popc o => some (encDA 1 2 0 o)
  | .clz o => some (encDA 1 2 1 o)
  | .ctz o => some (encDA 1 2 2 o)
  | .brev o => some (encDA 1 2 3 o)
  | .bfx o => some (encDAB 1 3 0 o)
  | .bfi o => some (encDAB 1 3 1 o)
  | .bswap o => some (encDAS 1 3 2 o)
  | .sext o => some (encDAS 1 3 3 o)
  | .fadd o => some (encDAB 1 4 0 o)
  | .fsub o => some (encDAB 1 4 1 o)
  | .fmul o => some (encDAB 1 4 2 o)
  | .fdiv o => some (encDAB 1 4 3 o)
  | .fmin o => some (encDAB 1 5 0 o)
  | .fmax o => some (encDAB 1 5 1 o)
  | .fsqrt o => some (encDA 1 5 2 o)
  | .fabs o => some (encDA 1 5 3 o)
  | .fma o => some (encDABC 1 6 0 o)
  | .fms o => some (encDABC 1 6 1 o)
  | .fnma o => some (encDABC 1 6 2 o)
  | .fnms o => some (encDABC 1 6 3 o)
  | .fcmpeq o => some (encCmp 1 7 0 o)
  | .fcmplt o => some (encCmp 1 7 1 o)
  | .fcmple o => some (encCmp 1 7 2 o)
  | .fcmpun o => some (encCmp 1 7 3 o)
  | .cvtif o => some (encDA 1 8 0 o)
  | .cvtfi o => some (encDA 1 8 1 o)
  | .cvtfb o => some (encDA 1 8 2 o)
  | .cvtbf o => some (encDA 1 8 3 o)
  | .cvtf8 o => some (encDA 1 9 0 o)
  | .cvt8f o => some (encDA 1 9 1 o)
  | .cvtf6 o => some (encDA 1 9 2 o)
  | .cvt6f o => some (encDA 1 9 3 o)
  | .vntest o => some (encCmpA 1 10 0 o)
  | .vnrep o => some (encDAB 1 10 1 o)
  | .vninfo o => some (encDA 1 10 2 o)
  | .fneg o => some (encDA 1 11 0 o)
  | .fclass o => some (encDA 1 11 1 o)
  | .mfs o => some (encMFS 1 12 0 o)
  | .mts o => some (encMFS 1 13 0 o)
  | .vadd o => some (encVDAB 2 0 0 o)
  | .vsub o => some (encVDAB 2 0 1 o)
  | .vmul o => some (encVDAB 2 0 2 o)
  | .vdiv o => some (encVDAB 2 0 3 o)
  | .vmin o => some (encVDAB 2 1 0 o)
  | .vmax o => some (encVDAB 2 1 1 o)
  | .vand o => some (encVDAB 2 1 2 o)
  | .vor o => some (encVDAB 2 1 3 o)
  | .vxor o => some (encVDAB 2 2 0 o)
  | .vshl o => some (encVDAB 2 2 1 o)
  | .vshr o => some (encVDAB 2 2 2 o)
  | .vsar o => some (encVDAB 2 2 3 o)
  | .vfma o => some (encVDABC 2 3 0 o)
  | .vfms o => some (encVDABC 2 3 1 o)
  | .vabsd o => some (encVDAB 2 3 2 o)
  | .vsqd o => some (encVDAB 2 3 3 o)
  | .vadds o => some (encVDAB 2 4 0 o)
  | .vmuls o => some (encVDAB 2 4 1 o)
  | .vmaxs o => some (encVDAB 2 4 2 o)
  | .vsplat o => some (encVDA 2 4 3 o)
  | .vcmpeq o => some (encVCmp 2 5 0 o)
  | .vcmpne o => some (encVCmp 2 5 1 o)
  | .vcmplt o => some (encVCmp 2 5 2 o)
  | .vcmple o => some (encVCmp 2 5 3 o)
  | .vsel o => some (encVDAB 2 6 0 o)
  | .vmov o => some (encVDA 2 6 1 o)
  | .vneg o => some (encVDA 2 6 2 o)
  | .vabs o => some (encVDA 2 6 3 o)
  | .vredsum o => some (encVDA 2 7 0 o)
  | .vredmax o => some (encVDA 2 7 1 o)
  | .vredmin o => some (encVDA 2 7 2 o)
  | .vredarg o => some (encVDA 2 7 3 o)
  | .vcvt o => some (encVDA 2 8 0 o)
  | .vscale o => some (encVDA 2 8 1 o)
  | .viota o => some (encVD 2 8 2 o)
  | .vcomp o => some (encVDA 2 8 3 o)
  | .vld o => some (encVLoad 2 9 0 o)
  | .vst o => some (encVStore 2 10 0 o)
  | .vlds o => some (encVLoadB 2 11 0 o)
  | .vsts o => some (encVStoreB 2 11 1 o)
  | .vldb o => some (encVLoadB 2 11 2 o)
  | .vstb o => some (encVStoreB 2 11 3 o)
  | .vgath o => some (encVLane 2 12 0 o)
  | .vscat o => some (encVLane 2 12 1 o)
  | .vscatadd o => some (encVLane 2 12 2 o)
  | .vscatmax o => some (encVLane 2 12 3 o)
  | .vtopkins o => some (encVTopk 2 13 0 o)
  | .vtopkthr o => some (encVDA 2 13 1 o)
  | .vnmask o => some (encVNMask 2 13 2 o)
  | .vnrepv o => some (encVDAB 2 13 3 o)
  | .vbind o => some (encS0 2 14 0 o)
  | .vfree o => some (encS0 2 14 1 o)
  | .vsetl o => some (encSX 2 14 2 o)
  | .vgetl o => some (encSX 2 14 3 o)
  | .vwait o => some (encS0 2 14 4 o)
  | .vpixrd o => some (encSX 2 14 5 o)
  | .rclaim o => some (encDAB 3 0 0 o)
  | .rpub o => some (encAB 3 0 1 o)
  | .rpop o => some (encAB 3 0 2 o)
  | .rpeek o => some (encDAB 3 0 3 o)
  | .rwaitf o => some (encDAB 3 1 0 o)
  | .rwaite o => some (encDAB 3 1 1 o)
  | .rstat o => some (encDA 3 1 2 o)
  | .rcfg o => some (encAB 3 1 3 o)
  | .rapp o => some (encDAB 3 2 0 o)
  | .rsteal o => some (encDA 3 2 1 o)
  | .rpopt o => some (encDA 3 2 2 o)
  | .rcred o => some (encDA 3 2 3 o)
  | .qbind o => some (encA 3 3 0 o)
  | .qfree o => some (encN 3 3 1 o)
  | .copy o => some (encDA 3 4 0 o)
  | .bcset o => some (encAB 3 4 1 o)
  | .bcwait o => some (encDAB 3 4 2 o)
  | .mtask o => some (encDA 3 5 0 o)
  | .mprog o => some (encAB 3 5 1 o)
  | .mthr o => some (encA 3 5 2 o)
  | .mquery o => some (encDA 3 5 3 o)
  | .barc o => some (encD 4 0 0 o)
  | .barg o => some (encDA 4 0 1 o)
  | .barga o => some (encA 4 0 2 o)
  | .bargw o => some (encDAB 4 0 3 o)
  | .wsum o => some (encDAB 4 1 0 o)
  | .wmax o => some (encDAB 4 1 1 o)
  | .wmin o => some (encDAB 4 1 2 o)
  | .wor o => some (encDAB 4 1 3 o)
  | .launch o => some (encDA 4 2 0 o)
  | .lstat o => some (encDA 4 2 1 o)
  | .tsc o => some (encSX 4 3 0 o)
  | .whereAt o => some (encSX 4 3 1 o)
  | .lnum o => some (encSX 4 3 2 o)
  | .ganginfo o => some (encSX 4 3 3 o)
  | .crewinfo o => some (encSX 4 3 4 o)
  | .feat o => some (encSX 4 3 5 o)
  | .seam o => some (encSX 4 3 6 o)
  | .mfsp o => some (encMFSP 5 0 0 o)
  | .mtsp o => some (encMTSP 5 1 0 o)
  | .vshareWrite o => some (encMTSP 5 1 0 ⟨o.g, o.d, 72⟩)
  | .dctlInstall o => some (encMTSP 5 1 0 ⟨o.g, o.d, 80⟩)
  | .logctlInstall o => some (encMTSP 5 1 0 ⟨o.g, o.d, 120⟩)
  | .logcmdSeam o => some (encMTSP 5 1 0 ⟨o.g, o.d, 121⟩)
  | .invr o => some (encDAB 5 2 0 o)
  | .inva o => some (encA 5 2 1 o)
  | .icinv o => some (encAB 5 2 2 o)
  | .trapret o => some (encN 5 3 0 o)
  | .reinj o => some (encAB 5 3 1 o)
  | .ctxsave o => some (encA 5 3 2 o)
  | .ctxload o => some (encA 5 3 3 o)
  | .quiesceHold o => some (encDA 5 4 0 o)
  | .partset o => some (encDA 5 4 1 o)
  | .wswitch o => some (encDA 5 4 2 o)
  | .halt o => some (encN 5 4 3 o)
  | .ctrrd o => some (encDA 5 5 0 o)
  | .ctrcfg o => some (encAB 5 5 1 o)
  | .ctrsave o => some (encA 5 5 2 o)
  | .ctrload o => some (encA 5 5 3 o)
  | .mirset o => some (encAB 5 6 0 o)
  | .mirsync o => some (encAB 5 6 1 o)
  | .retire o => some (encAB 5 6 2 o)
  | .dctlTeardown o => some (encMTSP 5 1 0 ⟨o.g, o.d, 80⟩)
  | .logctlRemove o => some (encMTSP 5 1 0 ⟨o.g, o.d, 120⟩)
  | .logcmdUnpick o => some (encMTSP 5 1 0 ⟨o.g, o.d, 121⟩)
  | .logcmdForget o => some (encMTSP 5 1 0 ⟨o.g, o.d, 121⟩)
  | .logcmdResume o => some (encMTSP 5 1 0 ⟨o.g, o.d, 121⟩)
  | .quiesceRelease o => some (encDA 5 4 0 o)
  | .partsetDissolve o => some (encDA 5 4 1 o)
  | .vectorGrant _ => none
  | .vectorComplete _ => none
  | .barrelTurn _ => none
  | .breakPoint _ => none
  | .coatDeparture _ => none
  | .coatArrival _ => none
  | .crewDescriptorReply _ => none
  | .annexReply _ => none
  | .admissionAck _ => none
  | .bounceLanding _ => none
  | .bounceBackoffExpiry _ => none
  | .coatForward _ => none
  | .ldsReply _ => none
  | .remoteReadRequest _ => none
  | .remoteReply _ => none
  | .postedWriteArrival _ => none
  | .redArrival _ => none
  | .mergeGroupTimeout _ => none
  | .amoRequest _ => none
  | .waitRequest _ => none
  | .waiterResendTimer _ => none
  | .waitWithdrawal _ => none
  | .blockLimitExpiry _ => none
  | .postAck _ => none
  | .postRefusal _ => none
  | .requestResendTimer _ => none
  | .boardQuery _ => none
  | .boardReply _ => none
  | .cancelRequest _ => none
  | .mirrorUpdate _ => none
  | .appendArrival _ => none
  | .appendReply _ => none
  | .creditRequest _ => none
  | .creditGrant _ => none
  | .creditResendTimer _ => none
  | .creditReturn _ => none
  | .stealRequest _ => none
  | .stealReply _ => none
  | .dependenceResolved _ => none
  | .taskIssue _ => none
  | .copyChunkSend _ => none
  | .copyChunkArrival _ => none
  | .copyChunkRefused _ => none
  | .copyResumeNotice _ => none
  | .copyPendingTimeout _ => none
  | .copyDone _ => none
  | .matrixStep _ => none
  | .taskDone _ => none
  | .scoreLaneTake _ => none
  | .scoreBlock _ => none
  | .thetaRefresh _ => none
  | .crewArrive _ => none
  | .crewExitNotice _ => none
  | .crewCompletion _ => none
  | .crewCompletionAck _ => none
  | .tscSync _ => none
  | .invalidationDelivery _ => none
  | .invalidationSweep _ => none
  | .launchStop _ => none
  | .descriptorDrop _ => none
  | .mapBroadcast _ => none
  | .countingSweep _ => none
  | .gangPhaseComplete _ => none
  | .enqueue _ => none
  | .doorbellLaunch _ => none
  | .launchDepResolved _ => none
  | .launchAgeing _ => none
  | .launchSelect _ => none
  | .gangPlacement _ => none
  | .preemptVictims _ => none
  | .gangSave _ => none
  | .gangStart _ => none
  | .preemptionStop _ => none
  | .crewEnd _ => none
  | .faultRecordArrival _ => none
  | .launchComplete _ => none
  | .walkComplete _ => none
  | .walkRetryTimer _ => none
  | .seamOpen _ => none
  | .frayNotice _ => none
  | .debugStop _ => none
  | .debugStopComplete _ => none
  | .debugResume _ => none
  | .controlRegisterWrite _ => none
  | .dumpWrite _ => none
  | .hostRead _ => none
  | .hostWrite _ => none
  | .hostAtomic _ => none
  | .boot _ => none
  | .firmwareLoad _ => none
  | .attestation _ => none
  | .lifetimeWrite _ => none
  | .powerCheck _ => none
  | .checkpointCommand _ => none
  | .checkpointRestore _ => none
  | .coreLoss _ => none
  | .linkFailure _ => none
  | .linkCrcRetry _ => none
  | .fabricResult _ => none
  | .gangArrive _ => none
  | .proxyRequest _ => none
  | .fabricPartialArrival _ => none
  | .abagalLinkDown _ => none
  | .orderlyShutdown _ => none
  | .fabricCapabilityCommand _ => none

/-- The halfwords of the opcode table's numbering, in memory order: a 32-bit row is a PAGE prefix and a word. Where the
low halfword is itself a prefix it is taken as the first in memory, otherwise the high one is (log 20). -/
def tableHalves (nbits w : Nat) : List Nat :=
  if nbits ≤ 16 then [w % 65536]
  else if w % 65536 / 4096 = 15 then [w % 65536, w / 65536 % 65536]
  else [w / 65536 % 65536, w % 65536]

/-- The instruction the decoder reads from a word of the opcode table. -/
def decodeTableWord (nbits w : Nat) : Option Instr :=
  match decodeHalves (tableHalves nbits w ++ [0, 0, 0, 0]) with
  | .ok (i, _) => some i
  | .error _ => none

end Sys2Proof
end

