-- ==== Sys2Proof/Machine/Bits.lean ====
section
/-! DEFINITION. Bit fields, extensions and byte order, used by every later file (00 R4, R7, R9). -/
namespace Sys2Proof.Machine
open Sys2Proof

/-- The field v[hi:lo] as a number (00 R4). -/
def fld (v : Word) (hi lo : Nat) : Nat := v.toNat / 2 ^ lo % 2 ^ (hi + 1 - lo)

/-- Bit n of a doubleword. -/
def bitAt (v : Word) (n : Nat) : Bool := v.toNat / 2 ^ n % 2 = 1

/-- A condition as the number 1 or 0. -/
def b01 (b : Bool) : Nat := if b then 1 else 0

/-- The doubleword of a number, wrapped to 64 bits. -/
def wd (n : Nat) : Word := BitVec.ofNat 64 n

/-- Sext(x, n) of 00 R9 on the low n bits of a number. -/
def sextInt (x n : Nat) : Int :=
  let y := x % 2 ^ n
  if y < 2 ^ (n - 1) then (y : Int) else (y : Int) - (2 ^ n : Nat)

/-- Sext(x, n) as a doubleword (00 R9). -/
def sext (x : Word) (n : Nat) : Word := Word.ofExact (sextInt x.toNat n)

/-- Zext(x, n) as a doubleword (00 R9). -/
def zext (x : Word) (n : Nat) : Word := wd (x.toNat % 2 ^ n)

/-- A VA kept in 56 bits reads as its sign extension (04 R139). -/
def sextVA (x : Word) : Word := sext x 56

/-- Bits [63:56] all copy bit 55 (00 R10). -/
def canonical (va : Word) : Bool := sextVA va = va

/-- Replace the field [hi:lo] of v by the low bits of x. -/
def setFld (v : Word) (hi lo x : Nat) : Word :=
  let w := 2 ^ (hi + 1 - lo)
  wd (v.toNat - fld v hi lo * 2 ^ lo + (x % w) * 2 ^ lo)

/-- Bit number n replaced. -/
def setBit (v : Word) (n : Nat) (b : Bool) : Word := setFld v n n (b01 b)

/-- A number as n little-endian bytes (00 R4). -/
def leBytes : Nat → Nat → List Byte
  | 0, _ => []
  | n + 1, v => BitVec.ofNat 8 v :: leBytes n (v / 256)

/-- The number that little-endian bytes hold (00 R4). -/
def ofLe : List Byte → Nat
  | [] => 0
  | b :: t => b.toNat + 256 * ofLe t

/-- The list 0 to n - 1 shifted to start at s. -/
def span (s : Nat) : Nat → List Nat
  | 0 => []
  | n + 1 => s :: span (s + 1) n

/-- The number of 1 bits among the low n bits. -/
def popN : Nat → Nat → Nat
  | 0, _ => 0
  | n + 1, v => v % 2 + popN n (v / 2)

/-- The low n bits in reverse order. -/
def revN : Nat → Nat → Nat → Nat
  | 0, _, acc => acc
  | n + 1, v, acc => revN n (v / 2) (acc * 2 + v % 2)

/-- Trailing zero bits, at most n. -/
def ctzN : Nat → Nat → Nat
  | 0, _ => 0
  | n + 1, v => if v % 2 = 1 then 0 else 1 + ctzN n (v / 2)

/-- floor(x / 2^n) for an integer. -/
def shrInt (x : Int) (n : Nat) : Int := x / (2 ^ n : Nat)

/-- The least multiple of m at or above n. -/
def roundUp (n m : Nat) : Nat := (n + m - 1) / m * m

/-- Replace element i of a list. -/
def setAt {α : Type} : List α → Nat → α → List α
  | [], _, _ => []
  | _ :: t, 0, x => x :: t
  | h :: t, n + 1, x => h :: setAt t n x

/-- Remove element i of a list. -/
def dropAt {α : Type} : List α → Nat → List α
  | [], _ => []
  | _ :: t, 0 => t
  | h :: t, n + 1 => h :: dropAt t n

/-- Remove the first element that meets p. -/
def removeFirst {α : Type} (p : α → Bool) : List α → List α
  | [] => []
  | h :: t => if p h then t else h :: removeFirst p t

/-- The index of the first element that meets p. -/
def indexOf {α : Type} (p : α → Bool) : List α → Nat → Option Nat
  | [], _ => none
  | h :: t, n => if p h then some n else indexOf p t (n + 1)

/-- A sparse table: the entry of key k, or the default. -/
def tblGet {α : Type} (dflt : α) : List (Nat × α) → Nat → α
  | [], _ => dflt
  | (i, x) :: t, k => if i = k then x else tblGet dflt t k

/-- A sparse table with the entry of key k replaced; keys stay in rising order. -/
def tblSet {α : Type} : List (Nat × α) → Nat → α → List (Nat × α)
  | [], k, x => [(k, x)]
  | (i, y) :: t, k, x => if k < i then (k, x) :: (i, y) :: t else if k = i then (k, x) :: t else (i, y) :: tblSet t k x

end Sys2Proof.Machine
end

