-- ==== Sys2Proof/Machine/Flags.lean ====
section
/-! DEFINITION. The floating-point control word: rounding mode, saturation and the sticky flags (01 R25, R26; 03 R86). -/
namespace Sys2Proof.Machine
open Sys2Proof

/-- FCW.RM (01 R25). -/
inductive Rm where
  | rne | rtz | rup | rdn
  deriving DecidableEq, Repr

/-- The five sticky flags (01 R25; 03 R86). -/
structure Flags where
  ix : Bool
  uf : Bool
  ovf : Bool
  dz : Bool
  iv : Bool
  deriving DecidableEq, Repr

def Flags.none : Flags := { ix := false, uf := false, ovf := false, dz := false, iv := false }
def Flags.onlyIv : Flags := { Flags.none with iv := true }
def Flags.onlyIx (b : Bool) : Flags := { Flags.none with ix := b }

/-- Flags are set by OR and never cleared (01 R25). -/
def Flags.or (f g : Flags) : Flags :=
  { ix := f.ix || g.ix, uf := f.uf || g.uf, ovf := f.ovf || g.ovf, dz := f.dz || g.dz, iv := f.iv || g.iv }

/-- FCW (01 R25). -/
structure Fcw where
  flags : Flags
  sat : Bool
  rm : Rm
  deriving DecidableEq, Repr

/-- FCW at dispatch (01 R25). -/
def Fcw.reset : Fcw := { flags := Flags.none, sat := false, rm := .rne }

def Rm.code : Rm → Nat
  | .rne => 0 | .rtz => 1 | .rup => 2 | .rdn => 3
def Rm.ofCode : Nat → Rm
  | 0 => .rne | 1 => .rtz | 2 => .rup | _ => .rdn

/-- Flags as FCW[12:8] (01 R25). -/
def Flags.code (f : Flags) : Nat :=
  16 * b01 f.ix + 8 * b01 f.uf + 4 * b01 f.ovf + 2 * b01 f.dz + b01 f.iv
def Flags.ofCode (n : Nat) : Flags :=
  { ix := n / 16 % 2 = 1, uf := n / 8 % 2 = 1, ovf := n / 4 % 2 = 1, dz := n / 2 % 2 = 1, iv := n % 2 = 1 }

/-- FCW as MFS reads it (01 R25; 04 R139). -/
def Fcw.toWord (f : Fcw) : Word := wd (256 * f.flags.code + 4 * b01 f.sat + f.rm.code)

/-- MTS to FCW takes [12:8] and [2:0] (04 R141). -/
def Fcw.ofWord (v : Word) : Fcw :=
  { flags := Flags.ofCode (fld v 12 8), sat := bitAt v 2, rm := Rm.ofCode (fld v 1 0) }

/-- The sticky OR into FCW (01 R25). -/
def Fcw.raise (f : Fcw) (g : Flags) : Fcw := { f with flags := f.flags.or g }

end Sys2Proof.Machine
end

