-- ==== Sys2Proof/Machine/Fp.lean ====
section
/-! DEFINITION. Number formats, rounding and verdict encodings (03 R82 to R109), on exact values. -/
namespace Sys2Proof.Machine
open Sys2Proof

/-- The two IEEE-style formats (03 R82, R87). -/
inductive Fmt where
  | f32 | bf16
  deriving DecidableEq, Repr

/-- Significand bits with the leading one. -/
def Fmt.prec : Fmt → Nat
  | .f32 => 24 | .bf16 => 8
/-- The exponent of the last place of a subnormal. -/
def Fmt.emin : Fmt → Int
  | .f32 => -149 | .bf16 => -133
def Fmt.width : Fmt → Nat
  | .f32 => 32 | .bf16 => 16
/-- The default NaN (03 R84; 08 R257). -/
def Fmt.nan : Fmt → Nat
  | .f32 => 0x7FC00000 | .bf16 => 0x7FC0
def Fmt.inf : Fmt → Nat
  | .f32 => 0x7F800000 | .bf16 => 0x7F80
def Fmt.signBit (f : Fmt) : Nat := 2 ^ (f.width - 1)
def Fmt.signed (f : Fmt) (neg : Bool) (x : Nat) : Nat := x + (if neg then f.signBit else 0)

/-- What an encoding represents (00 R18; 03 R83, R87, R89). A finite non-zero value is m × 2^e with m > 0. -/
inductive FVal where
  | zero (neg : Bool)
  | fin (neg : Bool) (m : Nat) (e : Int)
  | inf (neg : Bool)
  | qnan (neg : Bool)
  | snan (neg : Bool)
  | vn
  | nar
  deriving DecidableEq, Repr

/-- Dec(FP32, bits) and Dec(BF16, bits) (03 R83, R87). -/
def decFp (f : Fmt) (bits : Nat) : FVal :=
  let neg : Bool := bits / f.signBit % 2 = 1
  let fb := f.prec - 1
  let ex := bits / 2 ^ fb % 256
  let fr := bits % 2 ^ fb
  if ex = 255 then
    if fr = 0 then .inf neg
    else if fr / 2 ^ (fb - 1) = 1 then .qnan neg
    else if fr / 2 ^ (fb - 2) = 1 then .vn
    else .snan neg
  else if ex = 0 then (if fr = 0 then .zero neg else .fin neg fr f.emin)
  else .fin neg (2 ^ fb + fr) (f.emin + (ex : Int) - 1)

/-- A verdict NaN in the FP32 position (03 R83, R100). -/
def isVN (f : Fmt) (bits : Nat) : Bool := decFp f (bits % 2 ^ f.width) = .vn

def FVal.isNaN : FVal → Bool
  | .qnan _ | .snan _ | .vn | .nar => true
  | _ => false
def FVal.isSNaN : FVal → Bool
  | .snan _ => true
  | _ => false
def FVal.isZero : FVal → Bool
  | .zero _ => true
  | _ => false
def FVal.isInf : FVal → Bool
  | .inf _ => true
  | _ => false
def FVal.neg : FVal → Bool
  | .zero n | .fin n _ _ | .inf n | .qnan n | .snan n => n
  | _ => false
/-- The value with its sign replaced. -/
def FVal.withSign (n : Bool) : FVal → FVal
  | .zero _ => .zero n
  | .fin _ m e => .fin n m e
  | .inf _ => .inf n
  | v => v
def FVal.negate (v : FVal) : FVal := v.withSign (!v.neg)

/-- DecTaper (03 R89). -/
def regimeRun (n p b : Nat) : Nat → Nat → Nat
  | 0, m => m
  | k + 1, m => if m < n - 1 && p / 2 ^ (n - 2 - m) % 2 = b then regimeRun n p b k (m + 1) else m
def decTaper (n bits : Nat) : FVal :=
  if bits = 0 then .zero false
  else if bits = 2 ^ (n - 1) then .nar
  else
    let s : Bool := bits / 2 ^ (n - 1) % 2 = 1
    let p := if s then 2 ^ n - bits else bits
    let b := p / 2 ^ (n - 2) % 2
    let m := regimeRun n p b n 1
    let k : Int := if b = 1 then (m : Int) - 1 else -(m : Int)
    let rest := if m < n - 1 then n - 2 - m else 0
    let e := if rest ≥ 1 then p / 2 ^ (rest - 1) % 2 else 0
    let fr := if rest ≥ 2 then p % 2 ^ (rest - 1) else 0
    let fbits := rest - 1
    .fin s (2 ^ fbits + fr) (2 * k + (e : Int) - (fbits : Int))

/-- The value scaled by 2^k. -/
def FVal.scale (k : Int) : FVal → FVal
  | .fin n m e => .fin n m (e + k)
  | v => v

/-- Round up by one last place? `half` compares the discarded part with one half (03 R85, R86). -/
def roundUpBy (rm : Rm) (neg odd inexact : Bool) (half : Ordering) : Bool :=
  match rm with
  | .rne => half = .gt || (half = .eq && odd)
  | .rtz => false
  | .rup => inexact && !neg
  | .rdn => inexact && neg

/-- The discarded part of m below 2^s, with a sticky bit for what m already lacks, against one half. -/
def halfCmp (m s : Nat) (sticky : Bool) : Ordering :=
  let r := m % 2 ^ s
  if s = 0 then .lt
  else if r > 2 ^ (s - 1) then .gt
  else if r < 2 ^ (s - 1) then .lt
  else if sticky then .gt else .eq

/-- m × 2^e as a multiple of 2^q, rounded: the multiple and whether it is inexact. -/
def roundAt (rm : Rm) (neg : Bool) (m : Nat) (e q : Int) (sticky : Bool) : Nat × Bool :=
  if q ≤ e then (m * 2 ^ (e - q).toNat, sticky)
  else
    let s := (q - e).toNat
    let t := m / 2 ^ s
    let inexact := m % 2 ^ s != 0 || sticky
    (t + b01 (roundUpBy rm neg (t % 2 = 1) inexact (halfCmp m s sticky)), inexact)

/-- Round(x, fmt) of a finite non-zero m × 2^e (+ a sticky part below its last place) and its flags (03 R85, R86).
`sat` is given for conversions only. -/
def roundFp (f : Fmt) (rm : Rm) (sat neg : Bool) (m : Nat) (e : Int) (sticky : Bool) : Nat × Flags :=
  let top : Int := (Nat.log2 m : Int) + e
  let q0 : Int := top - (f.prec : Int) + 1
  let q := if q0 < f.emin then f.emin else q0
  let r := roundAt rm neg m e q sticky
  if r.1 != 0 && (Nat.log2 r.1 : Int) + q ≥ 128 then
    let toMax : Bool := sat || (match rm with | .rne => false | .rtz => true | .rup => neg | .rdn => !neg)
    (f.signed neg (if toMax then f.inf - 1 else f.inf), { Flags.none with ovf := true, ix := true })
  else
    let u := roundAt rm neg m e q0 sticky
    let tiny : Bool := (Nat.log2 u.1 : Int) + q0 < f.emin + (f.prec : Int) - 1
    (f.signed neg ((q - f.emin).toNat * 2 ^ (f.prec - 1) + r.1), { Flags.none with ix := r.2, uf := r.2 && tiny })

/-- An exact integer multiple of 2^e, rounded; a zero takes the given sign. -/
def roundInt (f : Fmt) (rm : Rm) (sat zneg : Bool) (i : Int) (e : Int) : Nat × Flags :=
  if i = 0 then (f.signed zneg 0, Flags.none)
  else roundFp f rm sat (i < 0) i.natAbs e false

/-- A default NaN result, with IV or not. -/
def nanRes (f : Fmt) (iv : Bool) : Nat × Flags := (f.nan, { Flags.none with iv := iv })

/-- The signed integer and exponent of a finite value. -/
def FVal.toInt : FVal → Int × Int
  | .fin n m e => (if n then -(m : Int) else (m : Int), e)
  | _ => (0, 0)

/-- The exact sum of two finite values as an integer multiple of a power of two. -/
def addExact (a b : Int × Int) : Int × Int :=
  let e := if a.2 ≤ b.2 then a.2 else b.2
  (a.1 * (2 ^ (a.2 - e).toNat : Nat) + b.1 * (2 ^ (b.2 - e).toNat : Nat), e)

/-- The sign of an exact zero sum (03 R85). -/
def zeroSumNeg (rm : Rm) (sx sy : Bool) : Bool := if sx = sy then sx else rm = .rdn

/-- x + y with one rounding (04 R129). -/
def fpAdd (f : Fmt) (rm : Rm) (x y : FVal) : Nat × Flags :=
  if x.isNaN || y.isNaN then nanRes f (x.isSNaN || y.isSNaN)
  else match x, y with
    | .inf a, .inf b => if a = b then (f.signed a f.inf, Flags.none) else nanRes f true
    | .inf a, _ => (f.signed a f.inf, Flags.none)
    | _, .inf b => (f.signed b f.inf, Flags.none)
    | _, _ =>
      let s := addExact x.toInt y.toInt
      roundInt f rm false (zeroSumNeg rm x.neg y.neg) s.1 s.2

/-- x − y (04 R129). -/
def fpSub (f : Fmt) (rm : Rm) (x y : FVal) : Nat × Flags := fpAdd f rm x y.negate

/-- x × y (04 R129). -/
def fpMul (f : Fmt) (rm : Rm) (x y : FVal) : Nat × Flags :=
  let s := x.neg != y.neg
  if x.isNaN || y.isNaN then nanRes f (x.isSNaN || y.isSNaN)
  else if (x.isZero && y.isInf) || (x.isInf && y.isZero) then nanRes f true
  else if x.isInf || y.isInf then (f.signed s f.inf, Flags.none)
  else if x.isZero || y.isZero then (f.signed s 0, Flags.none)
  else
    let a := x.toInt; let b := y.toInt
    roundInt f rm false s (a.1 * b.1) (a.2 + b.2)

/-- The quotient of two positive integers with at least `bits` bits, its exponent, and whether a remainder is left. -/
def divBits (n d bits : Nat) : Nat × Int × Bool :=
  let k := bits + Nat.log2 d + 1 - Nat.log2 n
  ((n * 2 ^ k) / d, -(k : Int), (n * 2 ^ k) % d != 0)

/-- x ÷ y (04 R129). -/
def fpDiv (f : Fmt) (rm : Rm) (x y : FVal) : Nat × Flags :=
  let s := x.neg != y.neg
  if x.isNaN || y.isNaN then nanRes f (x.isSNaN || y.isSNaN)
  else if (x.isZero && y.isZero) || (x.isInf && y.isInf) then nanRes f true
  else if y.isZero then (f.signed s f.inf, { Flags.none with dz := !x.isInf })
  else if x.isInf then (f.signed s f.inf, Flags.none)
  else if x.isZero || y.isInf then (f.signed s 0, Flags.none)
  else
    let a := x.toInt; let b := y.toInt
    let q := divBits a.1.natAbs b.1.natAbs 40
    roundFp f rm false s q.1 (a.2 - b.2 + q.2.1) q.2.2

/-- The integer square root below 2^k, bit by bit. -/
def isqrt (n : Nat) : Nat → Nat → Nat
  | 0, r => r
  | k + 1, r => if (r + 2 ^ k) * (r + 2 ^ k) ≤ n then isqrt n k (r + 2 ^ k) else isqrt n k r

/-- √x (04 R131). -/
def fpSqrt (f : Fmt) (rm : Rm) (x : FVal) : Nat × Flags :=
  match x with
  | .zero s => (f.signed s 0, Flags.none)
  | .inf false => (f.inf, Flags.none)
  | .inf true => nanRes f true
  | .fin true _ _ => nanRes f true
  | .fin false m e =>
    let sh : Nat := 64 + (if (e - 64) % 2 = 0 then 0 else 1)
    let n := m * 2 ^ sh
    let r := isqrt n 46 0
    roundFp f rm false false r ((e - (sh : Int)) / 2) (r * r != n)
  | v => nanRes f v.isSNaN

/-- ±(x × y) ± z with one rounding (04 R132). -/
def fpFma (f : Fmt) (rm : Rm) (np nz : Bool) (x y z : FVal) : Nat × Flags :=
  let sp := (x.neg != y.neg) != np
  let z := if nz then z.negate else z
  let sn := x.isSNaN || y.isSNaN || z.isSNaN
  if (x.isZero && y.isInf) || (x.isInf && y.isZero) then nanRes f true
  else if x.isNaN || y.isNaN || z.isNaN then nanRes f sn
  else if x.isInf || y.isInf then
    (match z with
      | .inf s => if s = sp then (f.signed sp f.inf, Flags.none) else nanRes f true
      | _ => (f.signed sp f.inf, Flags.none))
  else match z with
    | .inf s => (f.signed s f.inf, Flags.none)
    | _ =>
      let a := x.toInt; let b := y.toInt
      let p : Int := a.1 * b.1
      let p := if np then -p else p
      let s := addExact (p, if p = 0 then z.toInt.2 else a.2 + b.2) z.toInt
      roundInt f rm false (zeroSumNeg rm sp z.neg) s.1 s.2

/-- |x − y| and (x − y)² with one rounding (08 R256, R257). -/
def fpAbsDiff (f : Fmt) (rm : Rm) (square : Bool) (x y : FVal) : Nat × Flags :=
  if x.isNaN || y.isNaN then nanRes f (x.isSNaN || y.isSNaN)
  else match x, y with
    | .inf a, .inf b => if a = b then nanRes f true else (f.inf, Flags.none)
    | .inf _, _ => (f.inf, Flags.none)
    | _, .inf _ => (f.inf, Flags.none)
    | _, _ =>
      let s := addExact x.toInt y.negate.toInt
      if square then roundInt f rm false false (s.1 * s.1) (2 * s.2)
      else roundInt f rm false false (s.1.natAbs : Int) s.2

/-- The order of two values that are not NaNs, −0 and +0 equal (04 R133). -/
def fpLt (x y : FVal) : Bool :=
  match x, y with
  | .inf true, .inf true => false
  | .inf true, _ => true
  | _, .inf true => false
  | .inf false, _ => false
  | _, .inf false => true
  | _, _ => (addExact x.toInt y.negate.toInt).1 < 0
def fpEq (x y : FVal) : Bool := !fpLt x y && !fpLt y x

/-- The same order with −0 below +0 (04 R130). -/
def fpLtZ (x y : FVal) : Bool := fpLt x y || (x.isZero && y.isZero && x.neg && !y.neg)

/-- FMIN and FMAX on encodings (04 R130). -/
def fpMinMax (f : Fmt) (max : Bool) (a b : Nat) : Nat × Flags :=
  let x := decFp f a; let y := decFp f b
  let fl := { Flags.none with iv := x.isSNaN || y.isSNaN }
  if x.isNaN && y.isNaN then (f.nan, fl)
  else if x.isNaN then (b, fl)
  else if y.isNaN then (a, fl)
  else if max then (if fpLtZ x y then b else a, fl)
  else (if fpLtZ y x then b else a, fl)

/-- FABS, FNEG: the sign bit cleared or inverted; a NaN gives the default NaN (04 R131). -/
def fpSignOp (f : Fmt) (negate : Bool) (a : Nat) : Nat × Flags :=
  let x := decFp f a
  if x.isNaN then nanRes f x.isSNaN
  else (f.signed (negate && !x.neg) (a % f.signBit), Flags.none)

/-- The compares (04 R133; 08 R258). -/
inductive FCmp where
  | eq | ne | lt | le | un
  deriving DecidableEq, Repr
def fpCmp (c : FCmp) (x y : FVal) : Bool × Flags :=
  let un := x.isNaN || y.isNaN
  let sn := x.isSNaN || y.isSNaN
  match c with
  | .eq => (!un && fpEq x y, { Flags.none with iv := sn })
  | .ne => (un || !fpEq x y, { Flags.none with iv := sn })
  | .un => (un, { Flags.none with iv := sn })
  | .lt => (!un && fpLt x y, { Flags.none with iv := un })
  | .le => (!un && !fpLt y x, { Flags.none with iv := un })

/-- The class number of FCLASS (04 R134). -/
def fpClass (f : Fmt) (x : FVal) : Nat :=
  match x with
  | .inf true => 0
  | .fin true m _ => if m < 2 ^ (f.prec - 1) then 2 else 1
  | .zero true => 3
  | .zero false => 4
  | .fin false m _ => if m < 2 ^ (f.prec - 1) then 5 else 6
  | .inf false => 7
  | .snan _ => 8
  | _ => 9

/-- TaperRound(n, x) of 03 R92: the code and its flags. -/
def taperRound (n : Nat) (sat : Bool) (x : FVal) : Nat × Flags :=
  let sign : Bool → Nat → Nat := fun s p => if s then (2 ^ n - p) % 2 ^ n else p
  match x with
  | .zero _ => (0, Flags.none)
  | .inf s => (if sat then sign s (2 ^ (n - 1) - 1) else 2 ^ (n - 1), Flags.onlyIv)
  | .fin s m e =>
    let lm := Nat.log2 m
    let top : Int := (lm : Int) + e
    let big : Int := 2 * (n : Int) - 4
    if top ≥ big then
      (sign s (2 ^ (n - 1) - 1),
        if top > big || m != 2 ^ lm then { Flags.none with ovf := true, ix := true } else Flags.none)
    else if top < -big then
      (if top < -big - 1 then 0 else sign s 1, { Flags.none with uf := true, ix := true })
    else
      let k : Int := top / 2
      let eb := (top % 2).toNat
      let len : Nat := if k ≥ 0 then k.toNat + 2 else (1 - k).toNat
      let reg : Nat := if k ≥ 0 then 2 ^ len - 2 else 1
      -- y × 2^(lm + 1)
      let y := reg * 2 ^ (n - 1 - len) * 2 ^ (lm + 1) + (eb * 2 ^ lm + (m - 2 ^ lm)) * 2 ^ (n - 1 - len)
      let p := y / 2 ^ (lm + 1)
      let t := y % 2 ^ (lm + 1)
      let up : Bool := t > 2 ^ lm || (t = 2 ^ lm && p % 2 = 1)
      (sign s (p + b01 up), Flags.onlyIx (t != 0))
  | v => (2 ^ (n - 1), { Flags.none with iv := v.isSNaN })

/-- Round an exact value to an integer under RM: the integer and whether it is inexact (03 R98). -/
def roundToInt (rm : Rm) (neg : Bool) (m : Nat) (e : Int) : Int × Bool :=
  let r := roundAt rm neg m e 0 false
  (if neg then -(r.1 : Int) else (r.1 : Int), r.2)

/-- Conversion to a signed integer of w bits (03 R98; log 19). -/
def cvtToInt (w : Nat) (rm : Rm) (sat : Bool) (x : FVal) : Int × Flags :=
  let lo : Int := -(2 ^ (w - 1) : Nat)
  let hi : Int := (2 ^ (w - 1) : Nat) - 1
  match x with
  | .zero _ => (0, Flags.none)
  | .inf s => (if sat && !s then hi else lo, Flags.onlyIv)
  | .fin s m e =>
    let r := roundToInt rm s m e
    if r.1 < lo || r.1 > hi then (if sat && !s then hi else lo, { Flags.none with iv := true, ix := r.2 })
    else (r.1, Flags.onlyIx r.2)
  | _ => (if sat then 0 else lo, Flags.onlyIv)

/-- Conversion of any value to FP32 or BF16 (03 R85, R88, R97, R99). -/
def cvtToFp (f : Fmt) (rm : Rm) (sat : Bool) (x : FVal) : Nat × Flags :=
  match x with
  | .zero s => (f.signed s 0, Flags.none)
  | .inf s => (f.signed s f.inf, Flags.none)
  | .fin s m e => roundFp f (match f with | .f32 => rm | .bf16 => .rne) sat s m e false
  | v => nanRes f v.isSNaN

/-- FP32 to BF16 keeps a NaN's sign (03 R88). -/
def cvtF32Bf16 (sat : Bool) (bits : Nat) : Nat × Flags :=
  match decFp .f32 bits with
  | .qnan s => (Fmt.bf16.signed s 0x7FC0, Flags.none)
  | .snan s => (Fmt.bf16.signed s 0x7FC0, Flags.onlyIv)
  | x => cvtToFp .bf16 .rne sat x

/-- An integer as an exact value. -/
def intVal (i : Int) : FVal := if i = 0 then .zero false else .fin (i < 0) i.natAbs 0

/-- The order of two finite magnitudes. -/
def magLt (x y : FVal) : Bool := fpLt (x.withSign false) (y.withSign false)

/-- The pairwise tree of 03 R104 over present and absent positions, with the flags of its nodes. One level. -/
def treeLevel (f : Fmt) : List (Option Nat) → List (Option Nat) × Flags
  | some a :: some b :: t =>
    let r := fpAdd f .rne (decFp f a) (decFp f b)
    let u := treeLevel f t
    (some r.1 :: u.1, r.2.or u.2)
  | some a :: none :: t => let u := treeLevel f t; (some a :: u.1, u.2)
  | none :: x :: t => let u := treeLevel f t; (x :: u.1, u.2)
  | [x] => ([x], Flags.none)
  | [] => ([], Flags.none)
def treeLevels (f : Fmt) : Nat → List (Option Nat) → Flags → List (Option Nat) × Flags
  | 0, l, fl => (l, fl)
  | k + 1, l, fl =>
    match l with
    | _ :: _ :: _ => let u := treeLevel f l; treeLevels f k u.1 (fl.or u.2)
    | _ => (l, fl)

/-- The sum of 03 R104: up to 2^16 positions. -/
def treeSum (f : Fmt) (l : List (Option Nat)) : Nat × Flags :=
  let sn := l.any (fun o => match o with | some a => (decFp f a).isSNaN | none => false)
  let r := treeLevels f 16 l Flags.none
  let fl := r.2.or { Flags.none with iv := sn }
  match r.1 with
  | some a :: _ => (if (decFp f a).isNaN then f.nan else a, fl)
  | _ => (0, fl)

/-- The NUMEVT kinds that a set of flags and a number of NaR results raise (03 R86; 15 R450), by kind number. -/
def flagKinds (fl : Flags) (nars : Nat) : List (Nat × Nat) :=
  [(0, nars), (3, b01 fl.iv), (4, b01 fl.dz), (5, b01 fl.ovf), (6, b01 fl.uf), (7, b01 fl.ix)]

end Sys2Proof.Machine
end

