-- ==== Sys2Proof/Config.lean ====
section
/-! DEFINITION. What the device fixes, and the values the spec leaves open: constants without a body, so nothing rests on them. -/
namespace Sys2Proof.Config

/-- Bits of a read of a private area (completion board, departure entries, VF state area, flash), by draw number
(07 R233; 14 R422; log 14). -/
opaque freeWord : Nat → Word

/-- The verdict of the SLH-DSA-SHA2-128s check of a firmware image (14 R426; log 18). -/
opaque imageSigned : List Byte → Bool

/-- SHA-256 (14 R426, R427; log 18). -/
opaque sha256 : List Byte → List Byte

/-- The signature of an attestation report under the wafer's identity key (14 R427; log 18). -/
opaque attestSignature : List Byte → List Byte

/-- The wafer identity in an attestation report (14 R427; log 18). -/
opaque waferIdentity : List Byte

/-- VERSION of a capability, and the configuration-space offset of one that is not the first, by its ID (14 R429; log 66). -/
opaque capVersion : Nat → BitVec 8
opaque capOffset : Nat → BitVec 16

/-- DRAM row misses and Dezal flits of a core in a core cycle, by the cycle and the core's key: the spec counts them and gives neither the
rows nor the flits of a message (15 R448; log 69). -/
opaque rowMisses : Nat → Nat → Nat
opaque dezalFlits : Nat → Nat → Nat

/-- The SECDED syndrome of a granule's uncorrectable error (06 R187; log 14). -/
opaque syndrome : Nat → Word

end Sys2Proof.Config
end

