-- ==== Sys2Proof/Machine/State.lean ====
section
/-! DEFINITION. The state of the device, as plain data: strands, cores, partitions, memory, messages in flight, the package and
the fabric, and the state right after power-on. A table that is mostly at its reset value is a list of (key, entry) pairs. -/
namespace Sys2Proof.Machine
open Sys2Proof

/-- Why a step of the model stops. No meaning raises it: every failure the spec describes (a fault kind, a trap, a refusal)
is a next state. Safe: a state that stopped would only lose behaviours. -/
inductive Fault where
  /-- Reserved for a step that could name no state; raised by nothing. Safe. -/
  | noState
  deriving DecidableEq, Repr

/-- Why an instruction has no meaning in the model. -/
inductive Refusal where
  /-- Raised by an arm of `exec` whose instruction has no meaning yet, with its mnemonic. Safe. -/
  | notModelled (mnemonic : String)
  deriving DecidableEq, Repr

/-! ### The strand -/

/-- The pending bit of a general register (01 R32). -/
inductive Pend where
  | clear | load | handle
  deriving DecidableEq, Repr

/-- The stored fields of STAT; PINNED is derived (01 R24). -/
structure Stat where
  pinhold : Bool
  log : Bool
  wtrap : Bool
  qbound : Bool
  vbound : Bool
  heavy : Bool
  priv : Bool
  deriving DecidableEq, Repr

/-- One level of the loop registers (01 R23; 05 R162). -/
structure Loop where
  ls : Word
  le : Word
  lc : Word
  deriving DecidableEq, Repr

/-- The ping-pong detector (07 R217, R229). -/
structure Detector where
  prev : Nat
  rev : Nat
  win : Nat
  deriving DecidableEq, Repr

/-- The failure record of posted operations (05 R178). -/
structure FailRec where
  deadlink : Bool
  refused : Bool
  fails : Nat
  first : Nat
  deriving DecidableEq, Repr

/-- The reductions of 02 R63, in the order of their operation numbers. -/
inductive RedOp where
  | add | and | or | xor | min | max | minu | maxu | fadd | fmax | fmin
  deriving DecidableEq, Repr

/-- A posted operation (00 R14): a store, with or without .FF, or a reduction. -/
inductive PostOp where
  | st | stff | red (op : RedOp)
  deriving DecidableEq, Repr

/-- A strand by the slot it stands in and its identity in the model. -/
structure Ref where
  core : CoreId
  slot : Nat
  uid : Nat
  deriving DecidableEq, Repr

/-- The launch tag a message carries: partition, launch slot (10 R346). -/
structure Tag where
  part : Nat
  lslot : Nat
  deriving DecidableEq, Repr

/-- A posted operation not yet acknowledged (02 R14; 06 R192, R197). -/
structure Post where
  id : Nat
  pc : Word
  pa : Nat
  va : Word
  op : PostOp
  data : Word
  size : Nat
  rl : Bool
  shift : Nat := 16
  deriving DecidableEq, Repr

/-- A replay entry (06 R197), with the issue number of its operation. STATE: 0 UNSENT, 1 ACKED, 2 DROPPED. -/
structure Replay where
  id : Nat
  pa : Nat
  data : Word
  rl : Bool
  why : Nat
  state : Nat
  size : Nat
  op : PostOp
  va : Word
  deriving DecidableEq, Repr

/-- An LDS whose reply has not landed (05 R153). -/
structure LdsRec where
  id : Nat
  pc : Word
  d : Reg
  size : Nat
  aq : Bool
  va : Word := 0
  shift : Nat := 16
  deriving DecidableEq, Repr

/-- A register-mapped queue (09 R293). -/
structure QBind where
  inRing : Nat
  outRing : Nat
  inEn : Bool
  outEn : Bool
  deriving DecidableEq, Repr

/-- The class of a blocked turn (00 R16; 07 R210). -/
inductive WaitClass where
  | mem | msg
  deriving DecidableEq, Repr

/-- The full-empty action of an access at its home (05 R149). -/
inductive FeAct where
  | none | wait | waitClear | test | fill | waitFill
  deriving DecidableEq, Repr

/-- The condition of a wait on a word (05 R169, R170). -/
inductive WaitOp where
  | eq | ne | ge | any | zero
  deriving DecidableEq, Repr

/-- The atomics of 05 R155. -/
inductive AmoOp where
  | swap | cas | add | max
  deriving DecidableEq, Repr

/-- One access as its home sees it. `add` is the acknowledged add of a join word (05 R166, R168). -/
inductive MemOp where
  | load (size : Nat) (fe : FeAct)
  | store (size : Nat) (data : Word) (fe : FeAct)
  | amo (op : AmoOp) (size : Nat) (b c : Word)
  | add (delta : Word)
  | wait (op : WaitOp) (size : Nat) (v : Word)
  | post (op : PostOp) (size : Nat) (data : Word)
  /-- bytes of one granule, read or written by an instruction that moves a block (00 R13) -/
  | get (n : Nat)
  | put (data : List Byte)
  /-- the granule is marked empty; n bytes of a range lie in it (09 R300) -/
  | mark (n : Nat)
  deriving DecidableEq, Repr

/-- What the requester does with the answer of an access (05 R148, R155, R166 to R172; 06 R199). -/
inductive Cont where
  /-- LD, LDU: destination, size, sign extension, .FT -/
  | load (d : Reg) (size : Nat) (signed test : Bool)
  /-- ST.EF -/
  | store
  /-- AMO; cas writes p3 -/
  | amo (d : Reg) (size : Nat) (cas : Bool)
  /-- LDS: the strand does not wait; the number of its record and its destination -/
  | lds (id : Nat) (d : Reg)
  /-- WAIT*: the member as WAIT-EXPIRY records it, and the awaited value -/
  | wait (member v : Word)
  | join
  /-- EXIT's add of −1 -/
  | exit
  /-- SPAWN's add of 1: child's entry and kind, and the place reserved (a slot, or 32 the cloakroom, 33 the spill shed) -/
  | spawn (target : Word) (heavy : Bool) (place : Nat)
  /-- a board query of FWAIT, FTEST, FSTATUS, LSTAT, or of a HANDLE-pending source -/
  | fwait (a : Reg)
  | ftest (a : Reg)
  | fstatus (d a : Reg)
  | lstat (d a : Reg)
  | source (a : Reg)
  /-- RAPP, RSTEAL, RCRED -/
  | rapp (cidx : Nat)
  | rsteal (d : Reg) (off : Nat)
  | rcred (d : Reg) (cidx : Nat)
  /-- LAUNCH, SEAM, BARC, BARG and the W-collectives -/
  | launch (d : Reg)
  | seam (d : Reg)
  | barc (d : Reg)
  /-- LOGCMD SEAM -/
  | command
  /-- an engine request sent to a proxy (06 R205): COPY or MTASK, MPROG, MQUERY, with the feature's FEAT bit -/
  | proxy (d : Reg) (bit : Nat)
  | proxyProg
  | proxyQuery (d : Reg)
  /-- INVR, INVA, ICINV -/
  | inval
  /-- one granule of a block -/
  | block
  /-- REINJ of entry i of frame n of HERE, and CTXLOAD's sending of one; 64 + e names the strand in departure entry e -/
  | reinj (frame i : Nat)
  | replay (frame i : Nat)
  deriving DecidableEq, Repr

/-- A memory access of a strand, with every register value read at issue (05 R143). -/
structure MemReq where
  pa : Nat
  va : Word
  op : MemOp
  cont : Cont
  aq : Bool
  rl : Bool
  /-- the leaf of the translation, 0 when no leaf was consulted -/
  leaf : Word
  /-- the deadline of a limited wait, in core cycles -/
  limit : Option Nat
  /-- log2 of the page translated, for 11 R370 (model's own) -/
  shift : Nat := 16
  deriving DecidableEq, Repr

/-- Progress of a holding vector instruction (08 R266, R272): the next element, VGATH's rerun flag, the values of its general
registers, bytes read and not yet used, and flags that wait for its completion (01 R26). A stop is taken where `pos` is a multiple of
`unit`; 0 is an instruction that completes first. -/
structure VProg where
  unit : Nat
  pos : Nat
  rerun : Bool
  vals : List Word
  buf : List Byte
  fl : Flags
  deriving DecidableEq, Repr

/-- The state of a block that an instruction moves one granule at a time (06 R203): its bytes by offset, its length, and the bytes moved so
far. `phase`: 0 markings, 1 CTXSAVE or CTXLOAD moves its record, 2 CTXLOAD has placed it and sends replay entries; then `pos` is the first
identity placed and `len` how many. -/
structure Bulk where
  img : List Host.Cell
  len : Nat
  pos : Nat
  phase : Nat := 0
  deriving DecidableEq, Repr

/-- What a strand in a slot is doing (00 R15, R16; 06 R189, R193). -/
inductive Run where
  /-- issues at its next turn -/
  | ready
  /-- its instruction found a condition false and tries again at its next turn -/
  | blocked (cls : WaitClass)
  /-- a request was sent and the answer is awaited -/
  | await (cls : WaitClass) (r : MemReq)
  /-- Go in progress: the coat leaves when the strand has drained and an entry is free -/
  | departing (dest : CoreId) (op : Option MemReq)
  /-- arrived with an access to make before the next instruction -/
  | arrived (op : MemReq)
  /-- stopped by a pre-emption, launch or seam stop, with what it was doing -/
  | stopped (was : Option MemReq)
  /-- faulted: issues nothing until its launch ends -/
  | faulted
  deriving DecidableEq, Repr

/-- A trap that waits for the strand to drain (06 R193). -/
structure TrapReq where
  kind : Nat
  pc : Word
  info : Vector Word 4
  deriving DecidableEq, Repr

/-- A strand (01). Reset values are those at dispatch (01 R23, R31). -/
structure Strand where
  uid : Nat
  g : Vector Word 16
  pend : Vector Pend 16
  p : Vector Bool 4
  pc : Word
  stat : Stat
  fcw : Fcw
  jw : Word
  pix : Option Nat
  /-- the PC whose instruction PIX belongs to (06 R201; model's own) -/
  pixPc : Word
  sid : Nat
  ldep : Nat
  loops : Vector Loop 4
  fmta : Nat
  fmtb : Nat
  sca : Word
  scb : Word
  task : Word
  gang : Word
  crew : Word
  pinc : Nat
  det : Detector
  failrec : FailRec
  fwd : Nat
  bounce : Nat
  asid : Nat
  cln : Nat
  lslot : Option Nat
  posts : List Post
  lds : List LdsRec
  rq : List Replay
  floor : List (Nat × Nat)
  vctx : Option Nat
  qb : Option QBind
  handlerOf : Option Nat
  brkskip : Bool
  /-- the place that SPAWN holds for its child: a slot, 32 the cloakroom, 33 the spill shed (05 R166 step 3; model's own) -/
  nest : Option Nat
  hold : Option VProg
  /-- the bytes of a descriptor or record read so far (00 R13), and a block under way; model's own -/
  rbuf : List Byte
  bulk : Option Bulk
  trap : Option TrapReq
  run : Run
  /-- the deadline of the instruction now blocked, in core cycles -/
  deadline : Option Nat
  /-- the halfwords of the chain last fetched (06 R187, R196) -/
  chain : List Nat
  deriving DecidableEq, Repr

/-- A trap frame that holds a strand (06 R196). -/
structure Frame where
  st : Strand
  kind : Nat
  ilen : Nat
  info : Vector Word 4
  brkskip : Bool
  deriving DecidableEq, Repr

/-- An error in an entry of a core's own tables (07 R239): a single-bit one is corrected when the entry is read, any other ends the
launch. -/
inductive Mark where
  | clean | single | double
  deriving DecidableEq, Repr

/-- A vector context (08 R242). Elements at their reset value 0 are not listed; key 256 × register + element. -/
structure VecCtx where
  owner : Nat
  v : List (Nat × Nat)
  m : Vector (BitVec 256) 4
  vl : Nat
  ty : Elem
  blen : Nat
  vdm : BitVec 256
  vdmpc : Word
  deriving DecidableEq, Repr

/-- A coat: the strand it carries, the access to make on arrival and its journey (07 R217, R218). -/
structure Coat where
  st : Strand
  op : Option MemReq
  src : CoreId
  entry : Nat
  dst : CoreId
  fwd : Nat
  bounce : Nat
  /-- the crew descriptor and the loop annex are still to be read (07 R220, R221) -/
  needDesc : Bool
  needAnnex : Bool
  /-- the place that admission holds for it: a slot, 32 the cloakroom, 33 the spill shed, 34 the reserved entry -/
  place : Nat
  /-- an error in the entry that holds it -/
  mark : Mark
  /-- PREV is left as it is: a move by CTXLOAD (07 R229) -/
  keepPrev : Bool
  /-- the vector context that travels with a bound strand (06 R207) -/
  vec : Option VecCtx
  deriving DecidableEq, Repr

/-- A departure entry (07 R222, R225). `ready` is the cycle at which a bounced coat may be re-sent; `mark` an error in its annex. -/
structure Departure where
  coat : Coat
  landed : Bool
  ready : Nat
  mark : Mark
  deriving DecidableEq, Repr

/-! ### Units of the core -/

/-- The class boot test gives a position (12 R376). -/
inductive Class where
  | untested | live | dark | dead
  deriving DecidableEq, Repr

/-- A crew-table entry (07 R219). ARRIVED, EXITED and PENDREL are bit masks. -/
structure Crew where
  asid : Nat
  log : Bool
  taskv : Nat
  fmta : Nat
  fmtb : Nat
  size : Nat
  gangv : Nat
  sca : Word
  scb : Word
  exited : Nat
  arrived : Nat
  pendrel : Nat
  phase : Nat
  /-- where each arrived member waits -/
  refs : List (Nat × Ref)
  /-- removed from its gang's channels by a retirement (12 R389) -/
  removed : Bool
  mark : Mark
  deriving DecidableEq, Repr

/-- A merge group of the write queue (05 R158; 07 R215, R216). A location is its byte offset in the line. -/
structure Merge where
  line : Nat
  op : RedOp
  size : Nat
  vals : List (Nat × Nat)
  opened : Nat
  lastAt : Nat
  logged : Bool
  expendable : Bool
  leaf : Word
  tags : List Tag
  /-- the strands whose reductions it holds -/
  strands : List Nat
  asid : Nat
  opener : Option Nat
  deriving DecidableEq, Repr

/-- A request parked at a home (05 R150). Local waits are kept here too, marked, and use no entry of the table. -/
structure Waiter where
  ref : Ref
  req : MemReq
  isLocal : Bool
  msg : Nat
  /-- the launch tag of the request, for its reply -/
  tag : Option Tag
  deriving DecidableEq, Repr

/-- A ring (09 R276). READY holds the ready slots. -/
structure Ring where
  asid : Nat
  mode : Nat
  sizem1 : Nat
  logent : Nat
  base : Nat
  head : Nat
  pub : Nat
  claim : Nat
  granted : Nat
  cbatch : Nat
  pword : Nat
  cword : Nat
  qout : Bool
  qin : Bool
  taskref : Nat
  waiters : List (Nat × Nat)
  ready : List Nat
  deriving DecidableEq, Repr

/-- A credit-table entry (09 R287). -/
structure Credit where
  ln : Nat
  ring : Nat
  valid : Bool
  req : Bool
  sizem1 : Nat
  credits : Nat
  asid : Nat
  /-- the cycle of the resend after a grant of 0 from a full waiter list (R288) -/
  resend : Option Nat
  /-- the launch tag of its credit messages (10 R346) -/
  tag : Option Tag
  deriving DecidableEq, Repr

/-- A microprogram (09 R312). -/
structure MicroProg where
  ops : List Nat
  mono : Bool
  asid : Nat
  deriving DecidableEq, Repr

/-- The states of a scheduler record (09 R296). -/
inductive RecState where
  | waitdep | waitin | eligible | running | pending
  deriving DecidableEq, Repr

/-- A copy (09 R299 to R303): `word` is the descriptor's doubleword at 0x10 as read; `landed` and `sent` count its bytes from the start; `resume` is the cycle at which a PENDING copy
goes on by itself. -/
structure CopyJob where
  word : Word
  src : Word
  dst : Word
  sform : Nat
  dform : Nat
  fill : Bool
  pub : Bool
  bcben : Bool
  bcb : Nat
  ring : Nat
  len : Nat
  landed : Nat
  sent : Nat
  started : Bool
  resume : Nat
  deriving DecidableEq, Repr

/-- A lane of score mode (09 R315 to R319). -/
structure Lane where
  va : Word
  id : Word
  uflags : Nat
  nblk : Nat
  tags : List Nat
  j : Nat
  s : Nat
  verdict : Bool
  noverdict : Bool
  nanin : Bool
  badid : Bool
  deriving DecidableEq, Repr

/-- A matrix task (09 R305 to R321): the record as taken, its program, and its progress. -/
structure MatrixJob where
  words : Vector Word 16
  fmta : Nat
  fmtb : Nat
  sca : Word
  scb : Word
  prog : Option MicroProg
  step : Nat
  acc : List (Nat × Nat)
  lanes : List (Nat × Lane)
  theta : Nat
  /-- the query's scale bytes, read when the task starts or resumes (09 R314) -/
  qscales : List Nat
  blocks : Nat
  taken : Nat
  published : Nat
  abandoned : Nat
  noVerdict : Bool
  /-- the threshold word is to be read again (09 R320) -/
  refresh : Bool
  deriving DecidableEq, Repr

inductive Job where
  | copy (c : CopyJob)
  | matrix (m : MatrixJob)
  deriving DecidableEq, Repr

/-- A scheduler record (09 R295, R296), with what its unit needs of the issuing strand. -/
structure Record where
  seq : Nat
  asid : Nat
  lslot : Option Nat
  sid : Nat
  log : Bool
  priv : Bool
  gang : Word
  origin : CoreId
  cln : Nat
  prio : Bool
  order : Nat
  deps : List Word
  state : RecState
  cancel : Bool
  /-- stopped by a pre-emption or seam stop -/
  held : Bool
  job : Job
  deriving DecidableEq, Repr

/-- End states of the completion board (05 R173, R176); a saved operation is gone from the board it left (09 R327). -/
inductive EndState where
  | done | cancelled | faulted | gone
  deriving DecidableEq, Repr

/-- One slot of the completion board: the sequence in use or last used, and the retained ends, newest first: sequence, end state,
progress, and for a launch the PRIO and STARTED of its LSTAT word (05 R173; 10 R342). -/
structure BoardSlot where
  seq : Nat
  active : Bool
  ends : List (Nat × EndState × Nat × Nat)
  deriving DecidableEq, Repr

/-- A byte-count barrier (09 R304). -/
structure Bcb where
  count : Nat
  asid : Nat
  deriving DecidableEq, Repr

/-- An entry of a barrel's vector queue (08 R249 to R253): its chunks still to be granted, its flags, and the operand
that failed the verdict check, if one did. -/
structure VQEntry where
  slot : Nat
  uid : Nat
  pc : Word
  chunks : Nat
  granted : Nat
  flags : Flags
  nars : Nat
  poison : Option (Nat × Nat)
  holding : Bool
  deriving DecidableEq, Repr

/-- A cached translation with its tags (11 R361): the page's shift, its number, the leaf, and for a striped leaf the set
that was in force; and for a MIRROR page the home, size and mirrors that the walk read (11 R366). -/
structure Tlb where
  vmid : Nat
  asid : Nat
  shift : Nat
  vpn : Nat
  leaf : Word
  iset : Word
  mirrors : Option (Nat × Nat × List (Nat × Nat))
  deriving DecidableEq, Repr

/-- A walk in progress in a cluster (11 R363, R370). -/
structure Walk where
  cluster : Nat
  core : CoreId
  vmid : Nat
  asid : Nat
  va : Word
  barrel : Option Nat
  /-- the strand that waits, by its identity; none for a prefetch walk of VGATH (11 R364) -/
  uid : Option Nat
  queued : Bool
  marked : Bool
  /-- a miss that the full queue refused: the cycle of its retry -/
  retry : Option Nat
  deriving DecidableEq, Repr

/-- A walk that failed, kept until the access that asked for it raises the fault (00 R10; 11 R358). -/
structure WalkFail where
  uid : Nat
  va : Word
  level : Nat
  entry : Word
  bad : Option Nat
  deriving DecidableEq, Repr

/-- A crew's state on a gang channel, at its crew core (12 R387 to R390). ARRIVED and DONE are bit masks; `vals` holds each
arrived member's value and the kind of its instruction; `posted` is the period of the crew's posting; `shrinking` says that a
crew was removed in the open phase. -/
structure Channel where
  lslot : Nat
  chan : Nat
  arrived : Nat
  done : Nat
  phase : Nat
  vals : List (Nat × Word × Nat)
  posted : Option Nat
  shrinking : Bool
  result : Word
  ok : Bool
  flags : Flags
  shrunk : Bool
  exitSeen : Bool
  deriving DecidableEq, Repr

/-- The result of a fabric phase at a member partition, with the period in which it arrived (16 R460). -/
structure FabResult where
  chan : Nat
  v : Word
  ok : Bool
  flags : Flags
  period : Nat
  deriving DecidableEq, Repr

/-- The debug module's registers (15 R444), as written words. -/
structure Debug where
  stop : Bool
  stopped : Bool
  bkpt : Vector (Word × Word) 4
  watch : Vector (Word × Word) 2
  wstat : Word
  trcctl : Word
  trcOn : Bool
  trcbuf : Word
  trcptr : Word
  /-- the records of this core cycle, by TYPE: TYPE, LSLOT and ARG (15 R447) -/
  trcPend : List (Nat × Nat × Nat)
  shed : Vector (Word × Word) 4
  ctr : Vector (Word × Word) 8
  ovfpend : Nat
  deriving DecidableEq, Repr

/-- The configuration registers of a core (07 R227, R231, R234; 11 R365; 12 R381, R383; 14 R414; 15 R451; 16 R453). -/
structure CoreCfg where
  cls : Class
  groom : Bool
  halted : Bool
  ln : Nat
  mask : Nat
  partfeat : Nat
  proxy : Word
  fwdValid : Bool
  heir : Nat
  cloaklim : Nat
  spillcfg : Word
  partcfg : Word
  iset : Vector Word 8
  lmap : Word
  wheelcfg : Word
  wslots : Word
  mirtab : Word
  fabcfg : Word
  fabexp : Word
  fabslots : Word
  dumpctl : Word
  dumpva : Word
  deriving DecidableEq, Repr

/-- Launch-slot counters of a core (10 R346). -/
structure LaunchCtr where
  sent : Nat
  recv : Nat
  deriving DecidableEq, Repr

/-- A core (07). Tables list only entries that are not empty. -/
structure Core where
  cfg : CoreCfg
  slots : List (Nat × Strand)
  /-- places held for a strand still to come: slots 0 to 31, 32 the cloakroom, 33 the spill shed, 34 the reserved entry; 64 says that a retirement of the
  core is under way (12 R391) -/
  reserved : List Nat
  /-- the slots that issued in this core cycle (07 R210; model's own) -/
  turned : List Nat
  frozen : List (Nat × Frame)
  /-- frames whose strand has left them: FROZEN is 0 and the rest stands (06 R196, R200) -/
  oldFrames : List (Nat × Frame)
  cloak : List Coat
  spill : List Coat
  rescue : Option Coat
  admitting : List Coat
  departures : List (Nat × Departure)
  predictor : List (Nat × Nat)
  lastHome : List (Nat × CoreId)
  crews : List (Nat × Crew)
  descs : List (Nat × Nat × Crew)
  hpairs : List (Nat × (Word × Word))
  merges : List Merge
  waiters : List Waiter
  rings : List (Nat × Ring)
  credits : List (Nat × Credit)
  records : List (Nat × Record)
  issueNo : Nat
  board : List (Nat × BoardSlot)
  bcbs : List (Nat × Bcb)
  /-- copies refused here while this core was stopped: the copy's core and record (09 R296, R303) -/
  notify : List (Nat × Nat)
  micro : List (Nat × MicroProg)
  vctx : List (Nat × VecCtx)
  vqueue : Vector (List VQEntry) 2
  vshare : Word
  vcount : Vector Int 2
  micTlb : Vector (List Tlb) 2
  coreTlb : List Tlb
  lctr : List (Nat × LaunchCtr)
  chans : List Channel
  counters : List (Nat × Nat)
  numevt : List (Nat × Nat)
  errors : List (Nat × Nat)
  dbg : Debug
  created : Nat
  tscOff : Int
  /-- the count is ahead and is held for one tick (12 R385) -/
  tscHold : Bool
  deriving DecidableEq, Repr

/-! ### Launches, partitions -/

/-- A fault record (06 R188). -/
structure FaultRec where
  source : Nat
  reason : Nat
  kind : Nat
  tsc : Nat
  sid : Nat
  ln : Nat
  pc : Word
  addr : Word
  info : Word
  handle : Word
  deriving DecidableEq, Repr

/-- A context (10 R333). -/
structure Context where
  asid : Nat
  preempt : Nat
  home : Nat
  age : Nat
  root : Word
  hentry : Word
  harg : Word
  save : Word
  savecnt : Nat
  deriving DecidableEq, Repr

/-- A placed gang (10 R338, R339, R345): its rectangle, the crew cores whose crews have ended, and whether it is being stopped
for a save (R340). -/
structure Gang where
  no : Nat
  x0 : Nat
  y0 : Nat
  started : Bool
  /-- it was started before a save, and STARTED has counted it (10 R342) -/
  resumed : Bool
  stopping : Bool
  startTsc : Nat
  ended : List CoreId
  deriving DecidableEq, Repr

/-- A gang saved by pre-emption (10 R340): the save records of its cores, in row-major order. -/
structure SavedGang where
  no : Nat
  /-- STARTED counts it (10 R342) -/
  started : Bool
  recs : List Word
  x0 : Nat
  y0 : Nat
  chans : List (Nat × Channel)
  crews : List (Nat × Crew)
  deriving DecidableEq, Repr

/-- The states of 10 R353. -/
inductive LaunchState where
  | waitdep | queued | placing | running | sweeping | completing
  deriving DecidableEq, Repr

/-- A launch (10 R330, R335 to R353). `words` is its record. -/
structure Launch where
  asid : Nat
  words : Vector Word 8
  level : Nat
  entered : Nat
  order : Nat
  home : Nat
  bslot : Nat
  seq : Nat
  state : LaunchState
  slot : Option Nat
  nextGang : Nat
  gangs : List Gang
  endedGangs : Nat
  /-- gangs started (10 R342) -/
  startedGangs : Nat
  saved : List SavedGang
  fault : Option FaultRec
  more : Nat
  cancelled : Bool
  torn : Bool
  carried : List (Nat × Nat)
  sweep : Option (Nat × Nat × Nat)
  stopping : Bool
  dumping : Bool
  startSeam : Bool
  deriving DecidableEq, Repr

/-- An invalidation operation (11 R369, R370). `kind`: 0 INVR, 1 INVA, 2 ICINV; `clear` lists the clusters found clear. -/
structure InvOp where
  kind : Nat
  ref : Option Ref
  all : Bool
  vmid : Nat
  asid : Nat
  base : Nat
  len : Nat
  tsc : Nat
  ln : Nat
  delivered : Option Nat
  clear : List Nat
  deriving DecidableEq, Repr

/-- A retained seam (15 R436, R437, R441): the launches of its snapshot with their dispatcher's state, and the crew and channel
state of every core. -/
structure Seam where
  n : Nat
  /-- launches of the context started before it -/
  starts : Nat
  nosnap : Bool
  frayed : Bool
  launches : List Launch
  crews : List (Nat × (Nat × Crew))
  chans : List (Nat × Channel)
  /-- whose records the snapshot holds, in its order: the core's place in the live map and the gang's among the placed ones -/
  parts : List (Nat × Nat)
  deriving DecidableEq, Repr

/-- A log slot of a partition (15 R432, R440). -/
structure LogSlot where
  asid : Nat
  policy : Nat
  shsize : Nat
  shbase : Nat
  maxseam : Nat
  rsv : Nat
  snap : Word
  snapsz : Nat
  /-- the context SNAP belongs to: that of the strand that installed the slot (log 40) -/
  snapAsid : Nat
  cur : Nat
  /-- launches of the context started while the slot held it (R441) -/
  starts : Nat
  seams : List Seam
  /-- the strand whose UNPICK is under way -/
  busy : Option Nat
  frozen : Bool
  lost : Bool
  deriving DecidableEq, Repr

/-- A seam request (15 R436, R438): the slot, the strand that asked, if one did, and the wheel period in which it arrived. -/
structure SeamReq where
  slot : Nat
  ref : Option Ref
  period : Nat
  deriving DecidableEq, Repr

/-- A change of the live map under way (12 R382): the new list, the PA of the map, the stores made, the period of the broadcast, and the
value that HELD has again at its end, where the change set it. -/
structure MapJob where
  live : List CoreId
  base : Nat
  pos : Nat
  sent : Option Nat
  held : Option Bool
  deriving DecidableEq, Repr

/-- A partition (12 R381 to R387; 14 R414; 15). Its key is 16 × wafer + PART. -/
structure Partition where
  fx0 : Nat
  fy0 : Nat
  fwm1 : Nat
  fhm1 : Nat
  vmid : Nat
  vf : Nat
  live : List CoreId
  /-- retired LNs with their heirs (12 R381, R391) -/
  retired : List (Nat × Nat)
  newMap : Option MapJob
  /-- a core was lost and the paddock is not published yet; HELD as it was before (12 R392) -/
  losing : Option Bool
  gen : Nat
  held : Bool
  contexts : List Context
  launches : List Launch
  launchNo : Nat
  discards : Nat
  refusals : Nat
  errors : Nat
  period : Nat
  /-- the cycle at which the wheel's next period begins (12 R383; 14 R430) -/
  wheelNext : Nat
  /-- ASIDs whose teardown is under way (10 R351) -/
  tearing : List Nat
  invq : List InvOp
  logs : List (Nat × LogSlot)
  logLast : List (Nat × Nat)
  seamReqs : List SeamReq
  /-- fabric channels whose partial has left in the open phase, and the results that have come back (16 R459, R460) -/
  fabSent : List Nat
  fabResults : List FabResult
  mirrorSeq : List (Nat × Nat)
  dumpQueue : List Nat
  dumpSkips : Nat
  hostRefused : Nat
  deriving DecidableEq, Repr

/-! ### Messages -/

/-- The answer to an access (05 R150, R155, R172; 07 R232). -/
inductive Answer where
  /-- the value; the full-empty bit sampled (.FT) or whether a CAS wrote; a watchpoint match (offset, data, number); the
  update sequence of the copy that served a mirrored page -/
  | value (v : Word) (flag : Bool) (watch : Option (Nat × Word × Nat)) (seq : Nat)
  | refused
  | uncorrectable (pa : Nat)
  /-- the bytes of a granule, with the update sequence -/
  | bytes (l : List Byte) (seq : Nat)
  /-- no change was made; the last value of the word -/
  | withdrawn (v : Word)
  deriving DecidableEq, Repr

/-- The contents of a message. -/
inductive Body where
  | coat (c : Coat)
  | bounced (c : Coat)
  | admitted (entry : Nat)
  | descReq (lslot : Nat) (uid : Nat)
  | descReply (lslot : Nat) (cln : Nat) (crew : Option Crew)
  | annexReq (entry uid : Nat)
  | annexReply (uid : Nat)
  /-- a read, atomic, wait or acknowledged write, for a strand -/
  | request (ref : Ref) (r : MemReq)
  | reply (ref : Ref) (r : MemReq) (a : Answer)
  /-- the waiter table was full, or a stopped core refused: resend at the given cycle -/
  | resend (ref : Ref) (r : MemReq) (dst : CoreId) (ready : Nat) (full : Bool)
  | withdraw (ref : Ref) (id : Nat)
  /-- a posted write or reduction -/
  | post (ref : Ref) (p : Post) (leaf : Word) (asid : Nat) (log : Bool) (lslot : Option Nat)
  | postAck (ref : Ref) (id : Nat) (watch : Option (Nat × Word × Nat))
  | postNak (ref : Ref) (id : Nat) (why : Nat)
  | boardQuery (ref : Ref) (h : Word) (c : Cont)
  | boardReply (ref : Ref) (c : Cont) (state : Nat) (progress : Nat) (lstat : Word)
  | cancel (h : Word)
  | mirrorUpdate (midx seq : Nat) (runs : List (Nat × List Byte)) (strands : List Nat)
  | mirrorAck (strands : List Nat)
  | append (ref : Ref) (ring asid cidx : Nat) (data : List Byte)
  | appendReply (ref : Ref) (cidx : Nat) (ok switched : Bool)
  | creditReq (ring asid cidx : Nat)
  | creditGrant (cidx g sizem1 : Nat) (refused : Bool)
  | creditReturn (ref : Option Ref) (ring asid cidx n : Nat)
  | creditReturned (ref : Ref) (cidx n : Nat)
  | steal (ref : Ref) (ring asid : Nat)
  | stealReply (ref : Ref) (data : Option (List Byte))
  | chunk (rec : Nat) (origin : CoreId) (pa : Nat) (data : List Byte) (asid : Nat) (log : Bool) (bcb : Option Nat)
      (fill : Bool) (leaf : Word)
  | chunkAck (rec n : Nat)
  /-- the destination is stopped or quiesced, or the access at a PA is refused -/
  | chunkNak (rec : Nat) (bad : Option Nat)
  | resumeNotice (rec : Nat)
  | crewArrive (lslot member : Nat) (ref : Ref)
  | crewExit (lslot member : Nat)
  | crewDone (ref : Ref) (lslot member phase : Nat) (exitSeen : Bool)
  | crewDoneAck (lslot member : Nat)
  | gangArrive (lslot chan member : Nat) (v : Word) (kind : Nat)
  | faultRec (part lslot : Nat) (f : FaultRec)
  | enqueue (ref : Option Ref) (asid : Nat) (words : Vector Word 8) (d : Nat)
  | enqueueReply (ref : Ref) (handle : Word)
  | fray (part asid : Nat)
  /-- a request for the engine of a core with the feature (06 R205); `hops` counts the hops made -/
  | proxyTask (ref : Ref) (hops : Nat) (rec : Record)
  | proxyProg (ref : Ref) (hops : Nat) (slot asid : Nat) (d0 d1 : Word)
  | proxyThr (hops : Nat) (asid : Nat) (va : Word)
  | proxyQuery (ref : Ref) (hops : Nat) (sel : Nat)
  /-- the value, and 0 for p3 := 0, 1 for p3 := 1, 2 for FEATURE-ABSENT with the hops made as the value -/
  | proxyReply (ref : Ref) (v : Word) (code : Nat)
  /-- one partition's values by (crew core LN, member) and the kind of their instruction, 0xFFFF where kinds differ -/
  | fabPartial (part chan : Nat) (vals : List (Nat × Word)) (kind : Nat)
  | fabResult (chan : Nat) (v : Word) (ok : Bool) (flags : Flags)
  deriving DecidableEq, Repr

/-- A message in flight: 12 R374 gives its class; `isReturn` is the return class. -/
structure Msg where
  id : Nat
  src : CoreId
  dst : CoreId
  isReturn : Bool
  tag : Option Tag
  fwd : Nat
  body : Body
  deriving DecidableEq, Repr

/-! ### The package -/

/-- How far the module has booted (14 R426). -/
inductive BootStage where
  | off | rom | running | rejected
  deriving DecidableEq, Repr

/-- A virtual function (14 R422, R423; 16 R453). -/
structure Vf where
  part : Nat
  vmid : Nat
  fabric : Bool
  heldRecs : List (Nat × Vector Word 8)
  deriving DecidableEq, Repr

/-- A doorbell (14 R425). -/
structure Doorbell where
  vf : Nat
  asid : Nat
  part : Nat
  status : Nat
  deriving DecidableEq, Repr

/-- A field's power state (14 R430). `phase` keeps the count of its core cycles steady when the step changes (model's own). -/
structure Power where
  cap : Nat
  step : Nat
  throttles : Nat
  phase : Int
  deriving DecidableEq, Repr

/-- The lifetime record (14 R428). A histogram lists counts by bin: a bounce by the BOUNCE it brings a coat to, a migration by the logarithm of
its hops (DESIGN CHOICE, log 47). -/
structure Lifetime where
  corrected : Nat
  crcRetries : Nat
  bounces : List (Nat × Nat)
  migrations : List (Nat × Nat)
  throttles : Nat
  temperatures : List (Nat × Nat)
  deriving DecidableEq, Repr

/-- The attestation report (14 R427). -/
structure Attest where
  identity : List Byte
  digest : List Byte
  liveCount : Nat
  nonce : List Byte
  signature : List Byte
  deriving DecidableEq, Repr

/-- What WSWITCH keeps of a virtual function that is switched out (14 R423): a state area in memory holds its number. Counters are
kept by LN. -/
structure VfSave where
  contexts : List Context
  launches : List Launch
  discards : Nat
  refusals : Nat
  ctrs : List (Nat × Vector (Word × Word) 8)
  ovf : List (Nat × Nat)
  deriving DecidableEq, Repr

/-- A checkpoint on a shelf (14 R431): the target, the DRAM cells of the partition's cores and their empty granules. -/
structure Checkpoint where
  target : Nat
  part : Nat
  cells : List Host.Cell
  feEmpty : List Nat
  deriving DecidableEq, Repr

/-- An open fabric phase (16 R459). -/
structure FabPhase where
  part : Nat
  chan : Nat
  partials : List (Nat × List (Nat × Word) × Nat)
  deriving DecidableEq, Repr

/-- A paddock: columns x0 to x1 and rows y0 to y1 of a wafer (12 R377). -/
structure Paddock where
  w : Nat
  x0 : Nat
  x1 : Nat
  y0 : Nat
  y1 : Nat
  deriving DecidableEq, Repr

/-- What a host access still has to do: bytes to read behind those it has got, bytes to write, or an atomic (13 R397, R413). -/
inductive HostOp where
  | read (left : Nat) (got : List Byte)
  | write (data : List Byte)
  | atomic (op size : Nat) (a b : Word)
  deriving DecidableEq, Repr
/-- A host access under way: the core and context of its window, its partition and the VA it goes on at. -/
structure HostJob where
  link : Nat
  core : CoreId
  asid : Nat
  part : Nat
  va : Nat
  op : HostOp
  deriving DecidableEq, Repr

/-- The package and the fabric (14, 16). -/
structure Package where
  stage : BootStage
  image : List Byte
  haltedFields : List Nat
  paddocks : List Paddock
  vfs : List (Nat × Vf)
  vfSaves : List VfSave
  doorbells : List (Nat × Doorbell)
  /-- BAR2 windows: link ↦ (partition, ASID, base VA) -/
  windows : List (Nat × Nat × Nat × Nat)
  linksDown : List Nat
  shelves : List Nat
  power : List (Nat × Power)
  /-- the lifetime counts as they run, and the configuration flash: the record last written, the spare-row map (row by PA ↦ spare row) and the
  identity certificate (14 R428) -/
  lifetime : Lifetime
  flash : Lifetime
  spareRows : List (Nat × Nat)
  certificate : List Byte
  attest : Option Attest
  checkpoints : List Checkpoint
  urCount : Nat
  interrupts : List (Nat × Nat)
  wafers : List Nat
  dezalDown : List Nat
  fabPhases : List FabPhase
  /-- what the last host access returned (model's own: the host is outside) -/
  hostReply : List Byte
  /-- host accesses under way, in the order of their issue (13 R413) -/
  hostJobs : List HostJob
  deriving DecidableEq, Repr

/-- The whole device. -/
structure State where
  cores : List (Nat × Core)
  parts : List (Nat × Partition)
  pkg : Package
  /-- memory in canonical form: DRAM slices and scratchpads by PA, and host memory behind Abagal link k by
  2^52 + k × 2^48 + address -/
  mem : List Host.Cell
  /-- 16-byte granules, by PA / 16, that are empty (05 R149; 07 R214; log 67) -/
  feEmpty : List Nat
  /-- granules that hold an uncorrectable error, by PA / 16 -/
  ecc : List Nat
  /-- granules that hold a single-bit error, by PA / 16 (07 R213) -/
  soft : List Nat
  /-- cluster caches, by cluster -/
  clusters : List (Nat × List Tlb)
  walks : List Walk
  walkFails : List WalkFail
  /-- messages in flight, oldest first -/
  net : List Msg
  nextId : Nat
  /-- core cycles since power-on -/
  cycle : Nat
  /-- number of the next value drawn from an opaque function of Config -/
  free : Nat
  /-- the strand whose turn it is -/
  cur : Option (CoreId × Nat)
  /-- slots whose turn in this core cycle is still to come (07 R208) -/
  turns : List (CoreId × Nat)
  /-- steps the outside world and the order the spec leaves open put next (log 2) -/
  agenda : List Instr
  deriving DecidableEq, Repr

/-! ### Power-on -/

def Stat.reset : Stat :=
  { pinhold := false, log := false, wtrap := false, qbound := false, vbound := false, heavy := false, priv := false }
def Loop.reset : Loop := { ls := 0, le := 0, lc := 0 }
def Detector.reset : Detector := { prev := 0xFFFF, rev := 0, win := 0 }
def FailRec.reset : FailRec := { deadlink := false, refused := false, fails := 0, first := 0 }

/-- A strand with every item at its value at dispatch; the dispatcher fills the rest (01 R23, R31; 10 R339). -/
def Strand.fresh : Strand :=
  { uid := 0, g := Vector.replicate 16 0, pend := Vector.replicate 16 .clear, p := Vector.replicate 4 false, pc := 0,
    stat := Stat.reset, fcw := Fcw.reset, jw := 0, pix := none, pixPc := 0, sid := 0, ldep := 0, loops := Vector.replicate 4 Loop.reset,
    fmta := 3, fmtb := 3, sca := 0, scb := 0, task := 0, gang := 0, crew := 0, pinc := 0, det := Detector.reset,
    failrec := FailRec.reset, fwd := 0, bounce := 0, asid := 0, cln := 0, lslot := none, posts := [], lds := [], rq := [],
    floor := [], vctx := none, qb := none, handlerOf := none, brkskip := false, nest := none, hold := none, rbuf := [], bulk := none, trap := none, run := .ready,
    deadline := none, chain := [] }

def Debug.reset : Debug :=
  { stop := false, stopped := false, bkpt := Vector.replicate 4 (0, 0), watch := Vector.replicate 2 (0, 0), wstat := 0,
    trcctl := 0, trcOn := false, trcbuf := 0, trcptr := 0, trcPend := [], shed := Vector.replicate 4 (0, 0),
    ctr := Vector.replicate 8 (0, 0), ovfpend := 0 }

/-- The configuration of a core before boot (log 4): the fields whose reset value is "Boot" or "Boot test" stand at the
values named in the log; the others at the values of their tables. -/
def CoreCfg.reset : CoreCfg :=
  { cls := .untested, groom := false, halted := false, ln := 0xFFFF, mask := 0x1F, partfeat := 0x01,
    proxy := 0x0000FFFFFFFFFFFF, fwdValid := false, heir := 0, cloaklim := 16, spillcfg := 0, partcfg := 0,
    iset := Vector.replicate 8 0, lmap := 0, wheelcfg := 0, wslots := 0, mirtab := 0, fabcfg := 0, fabexp := 0,
    fabslots := 0, dumpctl := 0, dumpva := 0 }

/-- A core right after power-on. -/
def Core.reset : Core :=
  { cfg := CoreCfg.reset, slots := [], reserved := [], turned := [], frozen := [], oldFrames := [], cloak := [], spill := [], rescue := none,
    admitting := [], departures := [], predictor := [], lastHome := [], crews := [], descs := [], hpairs := [], merges := [],
    waiters := [], rings := [], credits := [], records := [], issueNo := 0, board := [], bcbs := [], notify := [], micro := [], vctx := [],
    vqueue := Vector.replicate 2 [], vshare := 0x88, vcount := Vector.replicate 2 0, micTlb := Vector.replicate 2 [],
    coreTlb := [], lctr := [], chans := [], counters := [], numevt := [], errors := [], dbg := Debug.reset,
    created := 0, tscOff := 0, tscHold := false }

def Lifetime.reset : Lifetime := { corrected := 0, crcRetries := 0, bounces := [], migrations := [], throttles := 0, temperatures := [] }

def Package.reset : Package :=
  { stage := .off, image := [], haltedFields := [], paddocks := [], vfs := [], vfSaves := [], doorbells := [], windows := [], linksDown := [], shelves := [],
    power := [], lifetime := Lifetime.reset, flash := Lifetime.reset, spareRows := [], certificate := [], attest := none, checkpoints := [], urCount := 0,
    interrupts := [], wafers := [0], dezalDown := [], fabPhases := [], hostReply := [], hostJobs := [] }

/-- The device right after power-on, before the BOOT step of 14 R426 (logs 3, 4, 5). -/
def State.reset : State :=
  { cores := [], parts := [], pkg := Package.reset, mem := [], feEmpty := [], ecc := [], soft := [], clusters := [],
    walks := [], walkFails := [], net := [], nextId := 0, cycle := 0, free := 0, cur := none, turns := [], agenda := [] }

end Sys2Proof.Machine
end

