-- ==== Sys2Proof/Machine/Memory.lean ====
section
/-! DEFINITION. Memory as sorted (address, byte) cells that list no zero byte, sets of granule numbers, and physical addresses
(00 R4; 01 R39, R40). -/
namespace Sys2Proof.Machine
open Sys2Proof

/-- What an address that no cell lists reads as (log 1). -/
def unwritten : Byte := 0

/-- The byte at an address. -/
def memGet : List Host.Cell → Nat → Byte
  | [], _ => unwritten
  | (i, b) :: t, a => if i = a then b else memGet t a

/-- The cells with the byte at an address replaced; canonical form is kept. -/
def memSet : List Host.Cell → Nat → Byte → List Host.Cell
  | [], a, b => if b = unwritten then [] else [(a, b)]
  | (i, x) :: t, a, b =>
    if a < i then (if b = unwritten then (i, x) :: t else (a, b) :: (i, x) :: t)
    else if i = a then (if b = unwritten then t else (a, b) :: t)
    else (i, x) :: memSet t a b

/-- The bytes from an address on. -/
def memRead (m : List Host.Cell) (a : Nat) : Nat → List Byte
  | 0 => []
  | n + 1 => memGet m a :: memRead m (a + 1) n

/-- The cells with bytes written from an address on. -/
def memWrite (m : List Host.Cell) (a : Nat) : List Byte → List Host.Cell
  | [] => m
  | b :: t => memWrite (memSet m a b) (a + 1) t

/-- Canonical form above a lower bound: addresses strictly rise and no byte is the unwritten one. -/
def memWfFrom : Nat → List Host.Cell → Bool
  | _, [] => true
  | lo, (i, b) :: t => decide (lo ≤ i) && b != unwritten && memWfFrom (i + 1) t

/-- The canonical form of memory. -/
def Memory.wf (m : List Host.Cell) : Bool := memWfFrom 0 m

/-- The cells from address a up to, not including, a + n. -/
def memSlice (m : List Host.Cell) (a n : Nat) : List Host.Cell :=
  m.filter (fun c => a ≤ c.1 && c.1 < a + n)

/-- The cells without those from a up to a + n. -/
def memClear (m : List Host.Cell) (a n : Nat) : List Host.Cell :=
  m.filter (fun c => !(a ≤ c.1 && c.1 < a + n))

/-- Cells written one by one, each moved from a base to another. -/
def memPaste (m : List Host.Cell) (src dst : Nat) : List Host.Cell → List Host.Cell
  | [] => m
  | (i, b) :: t => memPaste (memSet m (i - src + dst) b) src dst t

/-- n bytes at src replace n bytes at dst. -/
def memCopy (m : List Host.Cell) (src dst n : Nat) : List Host.Cell :=
  memPaste (memClear m dst n) src dst (memSlice m src n)

/-- A sorted set of numbers: membership, insertion, removal. -/
def setHas (l : List Nat) (k : Nat) : Bool := l.contains k
def setAdd : List Nat → Nat → List Nat
  | [], k => [k]
  | i :: t, k => if k < i then k :: i :: t else if i = k then i :: t else i :: setAdd t k
def setDel (l : List Nat) (k : Nat) : List Nat := l.filter (· != k)

/-- A core's key in the table of cores. -/
def coreKey (c : CoreId) : Nat := c.w * 65536 + c.x * 256 + c.y

/-- The core of a key. -/
def coreOfKey (k : Nat) : CoreId := { w := k / 65536, x := k / 256 % 256, y := k % 256 }

/-- The PA of offset 0 on a core (01 R39; 07 R237). -/
def coreBase (c : CoreId) : Nat := c.w * 2 ^ 46 + c.x * 2 ^ 38 + c.y * 2 ^ 30

/-- HomeOf: the core a device PA names (00 R11). -/
def homeOf (pa : Nat) : CoreId := { w := pa / 2 ^ 46 % 64, x := pa / 2 ^ 38 % 256, y := pa / 2 ^ 30 % 256 }

/-- The local offset of a PA (01 R39). -/
def offOf (pa : Nat) : Nat := pa % 2 ^ 30

/-- A location in host memory: link k's address a stands at 2^52 + k × 2^48 + a. -/
def isHost (pa : Nat) : Bool := pa ≥ 2 ^ 52
def hostPa (link a : Nat) : Nat := 2 ^ 52 + link * 2 ^ 48 + a % 2 ^ 48
def hostLink (pa : Nat) : Nat := (pa - 2 ^ 52) / 2 ^ 48

/-- The regions of 01 R40. -/
def inDram (off : Nat) : Bool := off < 0x20000000
def inScratch (off : Nat) : Bool := 0x20000000 ≤ off && off < 0x20100000
def inControl (off : Nat) : Bool := 0x30000000 ≤ off && off < 0x30010000

end Sys2Proof.Machine
end

