-- ==== Sys2Proof/Machine/Ops.lean ====
section
/-! DEFINITION. The named operations over the state: cores, slots, registers, the program counter, messages, counters, the
completion board, taking a fault, taking a trap and returning from one. -/
namespace Sys2Proof.Machine
open Sys2Proof

/-! ### Tables of the state -/

def State.core (s : State) (c : CoreId) : Core := tblGet Core.reset s.cores (coreKey c)
def State.setCore (s : State) (c : CoreId) (k : Core) : State := { s with cores := tblSet s.cores (coreKey c) k }
def State.modCore (s : State) (c : CoreId) (f : Core → Core) : State := s.setCore c (f (s.core c))

/-- The strand in slot n of a core. -/
def State.strandAt (s : State) (c : CoreId) (n : Nat) : Option Strand := List.lookup n (s.core c).slots
def State.putStrand (s : State) (c : CoreId) (n : Nat) (st : Strand) : State :=
  s.modCore c (fun k => { k with slots := tblSet k.slots n st })
def State.dropStrand (s : State) (c : CoreId) (n : Nat) : State :=
  s.modCore c (fun k => { k with slots := k.slots.filter (fun e => e.1 != n) })

/-- The strand whose turn it is, with its core and slot. -/
def State.curStrand (s : State) : Option (CoreId × Nat × Strand) :=
  match s.cur with
  | none => none
  | some (c, n) =>
    match s.strandAt c n with
    | none => none
    | some st => some (c, n, st)

def State.part (s : State) (p : Nat) : Option Partition := List.lookup p s.parts
def State.setPart (s : State) (p : Nat) (x : Partition) : State := { s with parts := tblSet s.parts p x }
def State.modPart (s : State) (p : Nat) (f : Partition → Partition) : State :=
  match s.part p with
  | none => s
  | some x => s.setPart p (f x)

/-- The partition number in PARTCFG (14 R414). -/
def Core.partNo (k : Core) : Nat := fld k.cfg.partcfg 51 48
def Core.owned (k : Core) : Bool := bitAt k.cfg.partcfg 47
def Core.vmid (k : Core) : Nat := fld k.cfg.partcfg 45 40
/-- The partition of a core in the model's numbering: 16 × wafer + PART. -/
def State.partOf (s : State) (c : CoreId) : Nat := 16 * c.w + (s.core c).partNo

/-- LNCORE: the core of a partition LN (01 R42; 12 R381). -/
def State.lnCore (s : State) (p ln : Nat) : Option CoreId :=
  match s.part p with
  | none => none
  | some x => x.live[ln]?
/-- PARTITION_LIVE_COUNT (12 R380). -/
def State.liveCount (s : State) (p : Nat) : Nat :=
  match s.part p with
  | none => 0
  | some x => x.live.length

/-- The context of an ASID in a partition (10 R333). -/
def State.context (s : State) (p asid : Nat) : Option Context :=
  match s.part p with
  | none => none
  | some x => x.contexts.find? (fun k => k.asid = asid)

/-- Now() on a core (00 R19): ticks since power-on, with the core's correction (log 12). -/
def State.now (s : State) (c : CoreId) : Nat := ((s.cycle * 10 / 36 : Nat) + (s.core c).tscOff).toNat

/-- A field is 24 columns by 32 rows: 10 by 8 of them make the 240 by 256 grid (12; 14 R419). -/
def fieldNo (c : CoreId) : Nat := c.w * 80 + c.y / 32 * 10 + c.x / 24
/-- The clock of a field in sixteenths of the nominal rate (14 R430). -/
def State.rate (s : State) (field : Nat) : Nat :=
  match List.lookup field s.pkg.power with
  | none => 16
  | some w => max 4 (min 16 w.step)
/-- Core cycles that a field has run when the unthrottled clock has made t: a clock of k sixteenths of the nominal rate passes over the others
(00 R2; 14 R430; log 12). -/
def State.fieldCycles (s : State) (field t : Nat) : Nat :=
  match List.lookup field s.pkg.power with
  | none => t
  | some w => (w.phase + (t * s.rate field / 16 : Nat)).toNat
/-- The core cycle that a field is in. -/
def State.coreCycle (s : State) (field : Nat) : Nat := s.fieldCycles field s.cycle
/-- The field's clock runs in this cycle of the unthrottled one. -/
def State.fieldClocked (s : State) (field : Nat) : Bool := s.fieldCycles field (s.cycle + 1) != s.fieldCycles field s.cycle
def State.clocked (s : State) (c : CoreId) : Bool := s.fieldClocked (fieldNo c)

/-- Where an access lands: a retired core sends it on to its heir, at the same local offset, at most 8 times (07 R232). -/
def State.landsAt : Nat → State → Nat → Option Nat
  | 0, _, _ => none
  | f + 1, s, pa =>
    let h := homeOf pa
    let k := s.core h
    if k.cfg.fwdValid then
      match s.lnCore (s.partOf h) k.cfg.heir with
      | none => none
      | some d => State.landsAt f s (coreBase d + offOf pa)
    else some pa
/-- The place of a PA that nothing refuses: its heir's, where its home is retired (07 R232; 13 R398). -/
def State.lands (s : State) (pa : Nat) : Nat := if isHost pa then pa else (s.landsAt 9 pa).getD pa

/-- Draw the number of the next free value (log 14). -/
def State.draw (s : State) : Word × State := (Config.freeWord s.free, { s with free := s.free + 1 })

/-- An operation on each core of a list in turn. -/
def overCores (s : State) (f : State → CoreId → State) (l : List CoreId) : State := l.foldl f s

/-! ### Counters -/

/-- One more in a bin of a histogram (14 R428). -/
def histAdd (h : List (Nat × Nat)) (bin : Nat) : List (Nat × Nat) := tblSet h bin (tblGet 0 h bin + 1)

/-- Add to a 48-bit core counter, wrapping (07 R211, R240). -/
def Core.count (k : Core) (i n : Nat) : Core :=
  { k with counters := tblSet k.counters i ((tblGet 0 k.counters i + n) % 2 ^ 48) }
def State.count (s : State) (c : CoreId) (i n : Nat) : State := s.modCore c (fun k => k.count i n)

/-- Add to a numeric event counter of a launch slot, saturating (15 R450). Strands of no launch have no slot. -/
def Core.numEvent (k : Core) (lslot : Option Nat) (kind n : Nat) : Core :=
  match lslot with
  | none => k
  | some l =>
    if n = 0 then k
    else { k with numevt := tblSet k.numevt (8 * l + kind) (min (tblGet 0 k.numevt (8 * l + kind) + n) (2 ^ 32 - 1)) }
def numEvents (k : Core) (lslot : Option Nat) : List (Nat × Nat) → Core
  | [] => k
  | (kind, n) :: t => numEvents (k.numEvent lslot kind n) lslot t
/-- The numeric events of one floating-point result (04 R114; 15 R450). -/
def State.fpEvents (s : State) (c : CoreId) (lslot : Option Nat) (fl : Flags) (nars : Nat) : State :=
  if fl = Flags.none && nars = 0 then s else s.modCore c (fun k => numEvents k lslot (flagKinds fl nars))

/-- One programmable counter sees an event of a VMID (15 R448). -/
def ctrBump (v : Word × Word) (ev vmid n : Nat) : (Word × Word) × Bool :=
  if bitAt v.2 63 && fld v.2 47 40 = ev && fld v.2 37 32 = vmid then
    let x := fld v.1 47 0 + n
    if x ≥ 2 ^ 48 then ((wd (x % 2 ^ 48), setBit v.2 61 true), bitAt v.2 62) else ((wd x, v.2), false)
  else (v, false)
/-- A fabric event counts only while the owner VF holds fabric permission (15 R448). -/
def State.fabricVf (s : State) (p : Nat) : Bool :=
  match s.part p with
  | none => false
  | some x => match List.lookup x.vf s.pkg.vfs with | none => false | some v => v.fabric
/-- A performance event on a core (15 R448), and the interrupts of the counters that overflow. -/
def State.perf (s : State) (c : CoreId) (ev n : Nat) : State :=
  let k := s.core c
  if k.dbg.ctr.toList.all (fun v => !bitAt v.2 63) then s
  else if (ev = 0x0F || ev = 0x10) && !s.fabricVf (s.partOf c) then s
  else
    let r := k.dbg.ctr.map (fun v => ctrBump v ev k.vmid n)
    let s := s.setCore c { k with dbg := { k.dbg with ctr := r.map (·.1) } }
    let vf := match s.part (s.partOf c) with | none => 0 | some x => x.vf
    if r.toList.any (·.2) then { s with pkg := { s.pkg with interrupts := s.pkg.interrupts ++ [(vf, ev)] } } else s

/-- An error without an architectural place: BCB drops 0, publication shortfalls 1, granules met 2 (09 R302, R304; 07 R216). -/
def State.countError (s : State) (c : CoreId) (i : Nat) : State :=
  s.modCore c (fun k => { k with errors := tblSet k.errors i (tblGet 0 k.errors i + 1) })

/-! ### Trace -/

/-- A record behind those of its TYPE and below. -/
def traceInsert (r : Nat × Nat × Nat) : List (Nat × Nat × Nat) → List (Nat × Nat × Nat)
  | [] => [r]
  | x :: t => if r.1 < x.1 then r :: x :: t else x :: traceInsert r t
/-- A trace record of this core cycle; the cycle's end writes it (15 R447). -/
def State.trace (s : State) (c : CoreId) (ty lslot arg : Nat) : State :=
  if !bitAt (s.core c).dbg.trcctl 63 then s
  else s.modCore c (fun k => { k with dbg := { k.dbg with trcPend := traceInsert (ty, lslot, arg % 2 ^ 32) k.dbg.trcPend } })
/-- A record's two doublewords. -/
def traceBytes (now ln : Nat) (r : Nat × Nat × Nat) : List Byte :=
  leBytes 8 now ++ leBytes 8 (r.1 * 2 ^ 56 + r.2.1 * 2 ^ 53 + ln * 2 ^ 32 + r.2.2)
/-- Records into the buffer of `size` of them, from record number cnt on. -/
def traceWrite (base size now ln : Nat) : Nat → List Host.Cell → List (Nat × Nat × Nat) → List Host.Cell
  | _, m, [] => m
  | cnt, m, r :: t => traceWrite base size now ln (cnt + 1) (memWrite m (base + cnt % size * 16) (traceBytes now ln r)) t
/-- A core cycle of a tracing core ends (15 R447): the triggers look at all records of the cycle, which are written when recording was on
or a start trigger is among them, as far as the buffer has room. -/
def State.flushTrace (s : State) (c : CoreId) : State :=
  let k := s.core c
  let d := k.dbg
  let start := fld d.trcctl 47 40
  let stop := fld d.trcctl 39 32
  let on := bitAt d.trcctl 63 && (d.trcOn || (start != 0 && d.trcPend.any (fun r => r.1 = start)))
  let size := fld d.trcbuf 47 32 * 65536 / 16
  let cnt := d.trcptr.toNat
  let rs := if !on || size = 0 then [] else if bitAt d.trcctl 61 then d.trcPend else d.trcPend.take (size - cnt)
  let full := rs.length < d.trcPend.length
  let m := traceWrite (coreBase c + fld d.trcbuf 29 16 * 65536) size (s.now c) k.cfg.ln cnt s.mem rs
  ({ s with mem := m } : State).setCore c { k with dbg := { d with
    trcPend := [], trcptr := d.trcptr + wd rs.length,
    trcOn := on && !full && !(stop != 0 && d.trcPend.any (fun r => r.1 = stop)) } }

/-! ### Messages -/

/-- The launch tag of a strand's messages (10 R346). -/
def State.tagOf (s : State) (c : CoreId) (lslot : Option Nat) : Option Tag :=
  match lslot with
  | none => none
  | some l => some { part := s.partOf c, lslot := l }

def Core.countSent (k : Core) (l n m : Nat) : Core :=
  let x := tblGet { sent := 0, recv := 0 } k.lctr l
  { k with lctr := tblSet k.lctr l { sent := x.sent + n, recv := x.recv + m } }

/-- A message starts: it is counted in SENT when it carries a launch tag (10 R346). -/
def State.send (s : State) (src dst : CoreId) (isReturn : Bool) (tag : Option Tag) (body : Body) : State :=
  let s := { s with net := s.net ++ [{ id := s.nextId, src := src, dst := dst, isReturn := isReturn, tag := tag, fwd := 0,
                                       body := body }], nextId := s.nextId + 1 }
  match tag with
  | none => s
  | some t => s.modCore src (fun k => k.countSent t.lslot 1 0)

/-- A message ends at a core: it leaves the network and is counted in RECV when tagged (10 R346). -/
def State.receive (s : State) (i : Nat) (m : Msg) : State :=
  let s := { s with net := dropAt s.net i }
  match m.tag with
  | none => s
  | some t => s.modCore m.dst (fun k => k.countSent t.lslot 0 1)

/-- A request and its reply that one step makes between two cores: both are counted when they carry a launch tag (10 R346; log 9). -/
def State.trip (s : State) (c h : CoreId) (lslot : Option Nat) : State :=
  match lslot with
  | none => s
  | some l => if h = c then s else (s.modCore c (fun k => k.countSent l 1 1)).modCore h (fun k => k.countSent l 1 1)

/-- A refused request that waits at its requester for the time of its resend. -/
def Msg.isTimer (m : Msg) : Bool :=
  match m.body with
  | .resend _ _ _ _ _ => true
  | _ => false
/-- Requests to the engines, rings and boards of a core, which a stopped core refuses and their cores resend (15 R445). -/
def Body.isAsk : Body → Bool
  | .append _ _ _ _ _ | .creditReq _ _ _ | .creditReturn _ _ _ _ _ | .steal _ _ _ | .boardQuery _ _ _ | .cancel _
  | .proxyTask _ _ _ | .proxyProg _ _ _ _ _ _ | .proxyThr _ _ _ | .proxyQuery _ _ _ => true
  | _ => false
/-- A message that waits at its destination without holding up others: a request to a stopped core, or a task at a full
scheduler (06 R205; 09 R298; 15 R445; log 8). -/
def State.waitsThere (s : State) (m : Msg) : Bool :=
  (m.body.isAsk && (s.core m.dst).dbg.stop) ||
  (match m.body with
    | .proxyTask _ _ _ => (s.core m.dst).records.length ≥ 32
    | _ => false)
/-- No older message of the same source, destination and class is in flight (12 R375). -/
def State.deliverable (s : State) (i : Nat) (m : Msg) : Bool :=
  (s.net.take i).all (fun o => o.isTimer || s.waitsThere o || !(o.src = m.src && o.dst = m.dst && o.isReturn = m.isReturn))

/-! ### Registers and predicates of a strand -/

def Strand.reg (st : Strand) (r : Reg) : Word := st.g[r]
def Strand.pending (st : Strand) (r : Reg) : Pend := st.pend[r]
/-- Writing a general register clears its pending bit (01 R32; 04 R112). -/
def Strand.setG (st : Strand) (r : Reg) (v : Word) : Strand :=
  { st with g := st.g.set r v, pend := st.pend.set r .clear }
def Strand.setPend (st : Strand) (r : Reg) (b : Pend) : Strand := { st with pend := st.pend.set r b }
def Strand.pred (st : Strand) (n : Fin 4) : Bool := st.p[n]
def Strand.setP (st : Strand) (n : Fin 4) (b : Bool) : Strand := { st with p := st.p.set n b }
def Strand.setP3 (st : Strand) (b : Bool) : Strand := st.setP 3 b
def Strand.raise (st : Strand) (fl : Flags) : Strand := { st with fcw := st.fcw.raise fl }

/-- STAT.PINNED (01 R24). -/
def Strand.pinned (st : Strand) : Bool :=
  st.stat.pinhold || st.stat.qbound || st.stat.vbound || st.pinc != 0

/-- STAT as MFS reads it (01 R24). -/
def Strand.statWord (st : Strand) : Word :=
  wd (128 * b01 st.stat.pinhold + 64 * b01 st.stat.log + 32 * b01 st.stat.wtrap + 16 * b01 st.stat.qbound +
    8 * b01 st.stat.vbound + 4 * b01 st.pinned + 2 * b01 st.stat.heavy + b01 st.stat.priv)

/-- The guard (02 R55, R56). -/
def guardHolds (st : Strand) (g : Guard) : Bool :=
  match g with
  | .none => true
  | .p0 => st.pred 0 | .p1 => st.pred 1 | .p2 => st.pred 2 | .p3 => st.pred 3
  | .np0 => !st.pred 0 | .np1 => !st.pred 1 | .np2 => !st.pred 2

/-- The fields of CREW (01 R27). -/
def Strand.spawned (st : Strand) : Bool := bitAt st.crew 5
def Strand.member (st : Strand) : Nat := fld st.crew 4 0

/-! ### The program counter -/

/-- The address after the chain (02 R50). -/
def Strand.next (st : Strand) : Word := st.pc + wd (2 * st.chain.length)

/-- The loop-end step, repeated outward (05 R163). -/
def loopEnd : Nat → Strand → Word → Strand
  | 0, st, t => { st with pc := t }
  | k + 1, st, t =>
    if st.ldep = 0 then { st with pc := t }
    else
      let j := st.ldep - 1
      let l := st.loops.getD j Loop.reset
      if l.le = t then
        let lc := l.lc - 1
        let st := { st with loops := st.loops.setIfInBounds j { l with lc := lc } }
        if lc != 0 then { st with pc := l.ls } else loopEnd k { st with ldep := j } t
      else { st with pc := t }

/-- The strand continues at an address, running the loop-end step there (05 R163). -/
def Strand.goTo (st : Strand) (t : Word) : Strand := loopEnd 4 st t
/-- The strand continues after its chain. -/
def Strand.advance (st : Strand) : Strand := st.goTo st.next

/-! ### Frames in control space -/

def Pend.isHandle : Pend → Bool
  | .handle => true
  | _ => false

/-- The frame's offset in the local map (06 R195). -/
def frameOff (n : Nat) : Nat := 0x30008000 + 1024 * n

/-- The CAUSE word (06 R196). -/
def causeWord (kind ilen : Nat) (brkskip : Bool) : Word :=
  wd (kind * 2 ^ 56 + ilen * 2 ^ 48 + 2 ^ 33 + b01 brkskip * 2 ^ 32)

/-! ### Slots -/

/-- The places held on a core for strands still to come: at admission, and for the children of SPAWNs under way (07 R223; 05 R166). -/
def Core.heldPlaces (k : Core) : List Nat := k.reserved ++ k.slots.filterMap (fun e => e.2.nest)
/-- A slot is free when no strand stands in it, no frame holds its strand and no one has reserved it (07 R209; 10 R338). -/
def Core.slotFree (k : Core) (n : Nat) : Bool :=
  n < 32 && (List.lookup n k.slots).isNone && (List.lookup n k.frozen).isNone && !k.heldPlaces.contains n

def Core.freeIn (k : Core) (b : Nat) : List Nat := (span (16 * b) 16).filter k.slotFree
/-- The slot a strand enters (07 R209): the lowest free slot of the barrel with more free slots, barrel 0 on a tie. -/
def Core.pickSlot (k : Core) : Option Nat :=
  let f0 := k.freeIn 0
  let f1 := k.freeIn 1
  if f1.length > f0.length then f1.head? else f0.head?

/-- The home of the access that a strand brings with it. -/
def Strand.carriedHome (st : Strand) : Option CoreId :=
  match st.run with
  | .arrived r => some (homeOf r.pa)
  | _ => none
/-- A strand enters a slot: its mirror floor is clear, and LASTHOME is that of the access that moved it, else clear (07 R228; 13
R400). -/
def State.enterSlot (s : State) (c : CoreId) (n : Nat) (st : Strand) : State :=
  s.modCore c (fun k =>
    let rest := k.lastHome.filter (fun e => e.1 != n)
    { k with slots := tblSet k.slots n { st with floor := [] },
             lastHome := match st.carriedHome with | none => rest | some h => tblSet rest n h })

/-- CLOAKLIM.DEPTH: values 17 to 31 act as 16 (07 R227). -/
def Core.cloakDepth (k : Core) : Nat := min k.cfg.cloaklim 16
/-- SPILLCFG.LIMIT: above 4,096 acts as 4,096 (07 R227). -/
def Core.spillLimit (k : Core) : Nat := min (fld k.cfg.spillcfg 12 0) 4096

/-- Places of the cloakroom and of the spill shed in use or reserved. -/
def Core.cloakUsed (k : Core) : Nat := k.cloak.length + (k.heldPlaces.filter (· = 32)).length
def Core.spillUsed (k : Core) : Nat := k.spill.length + (k.heldPlaces.filter (· = 33)).length

/-- The PA of entry i of the spill shed, and its granules (07 R227). -/
def Core.spillPa (k : Core) (c : CoreId) (i : Nat) : Nat := coreBase c + fld k.cfg.spillcfg 29 16 * 65536 + 256 * i
def entryGranules (pa : Nat) : List Nat := span (pa / 16) 16

/-- A coat becomes the strand of a slot; an access it carries is made first (05 R143; 07 R218). -/
def Coat.strand (x : Coat) : Strand :=
  match x.st.run with
  | .stopped r => { x.st with fwd := x.fwd, bounce := x.bounce, run := .stopped r }
  | _ => { x.st with fwd := x.fwd, bounce := x.bounce, run := (match x.op with | none => .ready | some r => .arrived r) }

/-! ### Strand identities -/

/-- A new SID and a new identity in the model (01 R29; logs 2, 15). -/
def State.newSid (s : State) (c : CoreId) : Nat × Nat × State :=
  let k := s.core c
  (k.cfg.ln * 65536 + k.created, s.nextId,
    ({ s with nextId := s.nextId + 1 } : State).setCore c { k with created := (k.created + 1) % 65536 })

/-! ### Faults -/

/-- A fault as its raiser states it (06 R187). -/
structure FaultInfo where
  kind : Nat
  reason : Nat
  addr : Word
  info : Word
  deriving DecidableEq, Repr

-- The fault kinds of 06 R187.
def fIllegal (reason : Nat) (pc info : Word) : FaultInfo := ⟨0x01, reason, pc, info⟩
def fPrivilege (addr info : Word) : FaultInfo := ⟨0x02, 0, addr, info⟩
def fAlign (addr : Word) (need : Nat) : FaultInfo := ⟨0x03, 0, addr, wd need⟩
def fTranslate (level : Nat) (va entry : Word) : FaultInfo := ⟨0x04, level, va, entry⟩
def fPermission (kind : Nat) (va leaf : Word) : FaultInfo := ⟨0x05, kind, va, leaf⟩
def fBound (form : Form) (base off : Word) : FaultInfo := ⟨0x06, form.code, base, off⟩
def fVerdict (pos bits : Nat) : FaultInfo := ⟨0x07, pos, 0, wd bits⟩
def fFeature (bit hops : Nat) : FaultInfo := ⟨0x08, bit, 0, wd hops⟩
def fAccess (addr : Word) (info : Nat) : FaultInfo := ⟨0x09, 0, addr, wd info⟩
def fUncorrectable (reason : Nat) (pa : Nat) : FaultInfo := ⟨0x0A, reason, wd pa, Config.syndrome pa⟩

/-- The walker met an uncorrectable PTE (11 R363): SOURCE 4 whoever asked. The record's REASON is the low byte. -/
def fWalker (pa : Nat) : FaultInfo := ⟨0x0A, 0x102, wd pa, Config.syndrome pa⟩

/-- The first four halfwords of a chain as one doubleword (06 R187). -/
def chainInfo (hs : List Nat) : Word :=
  wd (hs.getD 0 0 + 65536 * hs.getD 1 0 + 65536 ^ 2 * hs.getD 2 0 + 65536 ^ 3 * hs.getD 3 0)

/-- The core that receives a launch's fault records: the home of its context (10 R333). -/
def State.homeSlice (s : State) (p asid : Nat) (dflt : CoreId) : CoreId :=
  match s.context p asid with
  | none => dflt
  | some x => (s.lnCore p x.home).getD dflt

/-- A fault record goes to the dispatcher as a launch-tagged message (06 R189 step 1). -/
def State.reportFault (s : State) (c : CoreId) (asid : Nat) (lslot : Option Nat) (source sid : Nat) (pc handle : Word)
    (f : FaultInfo) : State :=
  match lslot with
  | none => s
  | some l =>
    let p := s.partOf c
    s.send c (s.homeSlice p asid c) false (some { part := p, lslot := l })
      (.faultRec p l { source := if f.reason ≥ 256 then 4 else source, reason := f.reason % 256, kind := f.kind, tsc := s.now c, sid := sid,
                       ln := (s.core c).cfg.ln, pc := pc, addr := f.addr, info := f.info, handle := handle })

/-- Fault(kind, info) of a strand (00 R17; 06 R189): it makes no further event, and its record goes to the dispatcher. -/
def State.takeFaultAt (s : State) (c : CoreId) (n : Nat) (st : Strand) (pc : Word) (source : Nat) (f : FaultInfo) : State :=
  (s.putStrand c n { st with run := .faulted, deadline := none, trap := none, hold := none, nest := none, rbuf := [], bulk := none }).reportFault c st.asid st.lslot source st.sid
    pc 0 f
def State.takeFault (s : State) (c : CoreId) (n : Nat) (st : Strand) (f : FaultInfo) : State :=
  s.takeFaultAt c n st st.pc 0 f

/-! ### Waiting coats -/

def Strand.isStopped (st : Strand) : Bool :=
  match st.run with
  | .stopped _ => true
  | .faulted => true
  | _ => false
/-- The coat that takes the next free slot, and the core without it: the holder of the reserved entry, else the cloakroom's first
(07 R224). A coat whose launch is stopped stays where it is (06 R202). -/
def Core.nextCoat (k : Core) : Option (Coat × Core) :=
  match k.rescue.filter (fun x => !x.st.isStopped) with
  | some x => some (x, { k with rescue := none })
  | none =>
    match k.cloak.find? (fun x => !x.st.isStopped) with
    | none => none
    | some x => some (x, { k with cloak := removeFirst (fun y => y.st.uid = x.st.uid) k.cloak })

/-- Corrected errors are counted by the core and in the lifetime record (07 R213, R239, R240; 14 R428). -/
def State.countCorrected (s : State) (c : CoreId) (n : Nat) : State :=
  let s := s.count c 52 n
  { s with pkg := { s.pkg with lifetime := { s.pkg.lifetime with corrected := s.pkg.lifetime.corrected + n } } }
def State.corrected (s : State) (c : CoreId) : Mark → State
  | .single => s.countCorrected c 1
  | _ => s
/-- The coat's launch ends for an error in its entry or its annex (07 R239): REASON 1 for the cloakroom and the departure entries, 2 for
the shed, whose entry ADDR names (log 51). -/
def State.coatLost (s : State) (c : CoreId) (x : Coat) (reason pa : Nat) : State :=
  s.reportFault c x.st.asid x.st.lslot 0 x.st.sid x.st.pc 0 (fUncorrectable reason pa)

/-- The shed's head moves to the cloakroom while there is room (07 R224). Its entry is read: errors are corrected and counted, or end the
coat's launch (07 R239). -/
def State.unspill : Nat → State → CoreId → State
  | 0, s, _ => s
  | f + 1, s, c =>
    let k := s.core c
    match k.spill with
    | [] => s
    | x :: t =>
      if k.cloakUsed < k.cloakDepth then
        let pa := k.spillPa c x.entry
        let s := s.setCore c { k with spill := t }
        if (entryGranules pa).any (setHas s.ecc) then State.unspill f (s.coatLost c x 2 pa) c
        else
          let bad := (entryGranules pa).filter (setHas s.soft)
          let s := if bad.isEmpty then s
            else ({ s with soft := s.soft.filter (fun g => !bad.contains g) } : State).countCorrected c bad.length
          State.unspill f (s.modCore c (fun k => { k with cloak := k.cloak ++ [{ x with place := 32, mark := .clean }] })) c
      else s

/-- The crew-table entry of a launch slot as the core reads it (07 R219, R239): an uncorrectable error ends the launch of that slot, with the
entry's PA; a single-bit one is corrected and counted. -/
def State.crewRead (s : State) (c : CoreId) (l : Nat) : Option Crew × State :=
  match List.lookup l (s.core c).crews with
  | none => (none, s)
  | some x =>
    match x.mark with
    | .clean => (some x, s)
    | .single =>
      (some x, (s.countCorrected c 1).modCore c (fun k => { k with crews := tblSet k.crews l { x with mark := .clean } }))
    | .double => (none, s.reportFault c x.asid (some l) 0 0 0 0 (fUncorrectable 1 (coreBase c + 0x30000200 + 64 * l)))

/-- Waiting coats take free slots (07 R224). A stopped core seats none (15 R445). -/
def State.refill : Nat → State → CoreId → State
  | 0, s, _ => s
  | f + 1, s, c =>
    let k := s.core c
    if k.dbg.stop then s
    else match k.pickSlot, k.nextCoat with
      | some n, some (x, k) =>
        let s := State.unspill 4096 (s.setCore c k) c
        match x.mark with
        | .double => State.refill f (s.coatLost c x 1 (coreBase c)) c
        | m => State.refill f ((s.corrected c m).enterSlot c n x.strand) c
      | _, _ => s

/-- A slot frees (07 R222, R224). -/
def State.freeSlot (s : State) (c : CoreId) (n : Nat) : State := State.refill 32 (s.dropStrand c n) c

/-! ### Traps -/

/-- The slot-pair key of a strand's handler registers: its launch slot, or the pair of strands of no launch (10 R334). -/
def pairKey (st : Strand) : Nat :=
  match st.lslot with
  | none => 8
  | some l => l
def State.handlerPair (s : State) (c : CoreId) (st : Strand) : Word × Word := tblGet (0, 0) (s.core c).hpairs (pairKey st)

/-- The handler strand of frame n (06 R195). -/
def handlerStrand (st : Strand) (uid sid n : Nat) (pair : Word × Word) (cause : Word) : Strand :=
  { Strand.fresh with
    uid := uid, sid := sid, pc := pair.1,
    g := ((((Vector.replicate 16 0).set 0 pair.2).set 1 (wd (frameOff n))).set 2 cause),
    stat := { Stat.reset with priv := true, heavy := true, pinhold := true, log := st.stat.log },
    fmta := st.fmta, fmtb := st.fmtb, sca := st.sca, scb := st.scb, task := st.task, gang := st.gang, crew := st.crew,
    asid := st.asid, cln := st.cln, lslot := st.lslot, handlerOf := some n }

/-- A frame holds zero in the ports of a bound queue (09 R294). -/
def zeroPorts (st : Strand) : Strand :=
  if st.stat.qbound then (((st.setG 12 0).setG 13 0).setG 14 0).setG 15 0 else st

/-- The strand's gang is being stopped, for pre-emption or because its launch ends (06 R202; 10 R340, R350). -/
def State.stopAsked (s : State) (c : CoreId) (st : Strand) : Bool :=
  match s.part (s.partOf c), st.lslot with
  | some x, some n =>
    x.launches.any (fun l => l.slot = some n && l.asid = st.asid &&
      (l.stopping || l.gangs.any (fun g => g.stopping && g.x0 = fld st.gang 23 16 && g.y0 = fld st.gang 31 24)))
  | _, _ => false

/-- Steps 3 and 4 of 06 R193 for a drained strand of kinds 1 to 4: its state goes to frame n, and the handler starts in the same
slot. Where a stop meets the trap, the handler is stopped before its first instruction (06 R202). -/
def State.freeze (s : State) (c : CoreId) (n : Nat) (st : Strand) (t : TrapReq) : State :=
  let ilen := 2 * st.chain.length
  let st := { zeroPorts st with pc := t.pc, trap := none, run := .ready, deadline := none, nest := none, rbuf := [], bulk := none }
  let s := (s.dropStrand c n).modCore c (fun k =>
    { k with frozen := tblSet k.frozen n { st := st, kind := t.kind, ilen := ilen, info := t.info, brkskip := false },
             oldFrames := k.oldFrames.filter (fun e => e.1 != n) })
  let r := s.newSid c
  let h := handlerStrand st r.2.1 r.1 n (s.handlerPair c st) (causeWord t.kind ilen false)
  r.2.2.enterSlot c n (if s.stopAsked c st then { h with run := .stopped none } else h)

/-- The strand has nothing outstanding that a trap or Go waits for (01 R34; 06 R193). -/
def Strand.drained (st : Strand) : Bool := st.posts.isEmpty && st.lds.isEmpty

/-- Vector instructions of the strand that have not completed (08 R248, R272). -/
def Core.vectorOpen (k : Core) (uid : Nat) : Bool := k.vqueue.toList.any (fun q => q.any (fun e => e.uid = uid))

/-- Trap(kind, info) (00 R17; 06 R193, R194): without a handler, or inside a handler, kinds 1 to 4 are faults; else the
strand drains and freezes. `pc` is the frame's PC. A stop for pre-emption is made by `standStill` (06 R202). -/
def State.takeTrap (s : State) (c : CoreId) (n : Nat) (st : Strand) (t : TrapReq) : State :=
  if st.handlerOf.isSome then s.takeFault c n st (fIllegal 0x0E st.pc (chainInfo st.chain))
  else if (s.handlerPair c st).1 = 0 then s.takeFault c n st (fIllegal 0x0D st.pc (chainInfo st.chain))
  else if st.drained && !(s.core c).vectorOpen st.uid then s.freeze c n st t
  else s.putStrand c n { st with trap := some t, run := .blocked .mem }

/-- OR one replay entry left UNSENT into a failure record (05 R178; 06 R200). -/
def FailRec.add (f : FailRec) (deadlink : Bool) (addr : Nat) : FailRec :=
  { deadlink := f.deadlink || deadlink, refused := f.refused || !deadlink,
    fails := min (f.fails + 1) 0xFFFF, first := if f.fails = 0 then addr % 2 ^ 32 else f.first }
def orUnsent : FailRec → List Replay → FailRec
  | f, [] => f
  | f, e :: t => orUnsent (if e.state = 0 then f.add (e.why = 3) e.va.toNat else f) t

/-- The failure record as FENCE and frames show it (05 R178). -/
def FailRec.toWord (f : FailRec) : Word :=
  wd (b01 f.deadlink * 2 ^ 63 + b01 f.refused * 2 ^ 62 + f.fails * 2 ^ 32 + f.first)
def FailRec.ofWord (v : Word) : FailRec :=
  { deadlink := bitAt v 63, refused := bitAt v 62, fails := fld v 47 32, first := fld v 31 0 }

/-- The return from a trap (06 R200 steps 2 to 4): the strand of frame n is reloaded into slot n. -/
def State.trapReturn (s : State) (c : CoreId) (n : Nat) : State :=
  match List.lookup n (s.core c).frozen with
  | none => s
  | some fr =>
    let st := { fr.st with failrec := orUnsent fr.st.failrec fr.st.rq, rq := [], brkskip := fr.brkskip, run := .ready }
    let s := (s.dropStrand c n).modCore c (fun k =>
      { k with frozen := k.frozen.filter (fun e => e.1 != n), oldFrames := tblSet k.oldFrames n fr })
    s.enterSlot c n st

/-! ### The completion board -/

/-- A handle's fields (05 R173). -/
def hKind (h : Word) : Nat := fld h 63 62
def hLn (h : Word) : Nat := fld h 61 46
def hSlot (h : Word) : Nat := fld h 45 40
def hSeq (h : Word) : Nat := fld h 39 0
def mkHandle (kind ln slot seq : Nat) : Word := wd (kind * 2 ^ 62 + ln * 2 ^ 46 + slot * 2 ^ 40 + seq)
/-- An invalid handle with its reason (09 R300). -/
def badHandle (reason : Nat) : Word := wd (0xC000000000000000 + reason)

def emptyBoard : BoardSlot := { seq := 0, active := false, ends := [] }
/-- The next sequence of a slot: it skips 0 (09 R295). -/
def nextSeq (q : Nat) : Nat := if (q + 1) % 2 ^ 40 = 0 then 1 else (q + 1) % 2 ^ 40

def EndState.code : EndState → Nat
  | .done => 2 | .cancelled => 3 | .faulted => 4 | .gone => 5

/-- Take the next sequence of a board slot. -/
def State.boardTake (s : State) (c : CoreId) (slot : Nat) : Nat × State :=
  let b := tblGet emptyBoard (s.core c).board slot
  let q := nextSeq b.seq
  (q, s.modCore c (fun k => { k with board := tblSet k.board slot { b with seq := q, active := true } }))
/-- Write the end state of the operation in a board slot; the last 4 are retained (05 R173). -/
def State.boardEndOf (s : State) (c : CoreId) (slot seq : Nat) (e : EndState) (progress info : Nat) : State :=
  s.modCore c (fun k =>
    let b := tblGet emptyBoard k.board slot
    let b' : BoardSlot := { seq := b.seq, active := if b.seq = seq then false else b.active,
                            ends := ((seq, e, progress, info) :: b.ends).take 4 }
    { k with board := tblSet k.board slot b' })
def State.boardEnd (s : State) (c : CoreId) (slot seq : Nat) (e : EndState) (progress : Nat) : State :=
  s.boardEndOf c slot seq e progress 0

/-- What a board slot reports of a sequence that is not in use (05 R173): an end state, GONE 5 or INVALID 6, with the
progress and LSTAT's PRIO and STARTED in their places. -/
def BoardSlot.ended (b : BoardSlot) (seq : Nat) : Nat × Nat × Nat :=
  match b.ends.find? (fun e => e.1 = seq) with
  | some e => (e.2.1.code, e.2.2)
  | none =>
    match b.ends.getLast? with
    | none => (6, 0, 0)
    | some o =>
      if seq != 0 && 0 < (o.1 + 2 ^ 40 - seq) % 2 ^ 40 && (o.1 + 2 ^ 40 - seq) % 2 ^ 40 ≤ 2 ^ 39 then (5, 0, 0) else (6, 0, 0)

/-- Blocks retired by a task: tile steps, or score blocks (05 R176). -/
def Job.progress : Job → Nat
  | .copy c => c.landed
  | .matrix m => m.step + m.blocks

/-- PRIO and STARTED in their places in LSTAT's word (10 R342); a launch that has ended keeps its last level (log 32). -/
def Launch.boardInfo (l : Launch) : Nat := l.level * 2 ^ 56 + l.startedGangs * 2 ^ 31
/-- STATE and PROGRESS of a handle, as the board that owns it answers (05 R173, R176), and LSTAT's word (10 R342). -/
def State.boardState (s : State) (p : Nat) (h : Word) : Nat × Nat × Word :=
  if hKind h = 3 then (6, 0, wd (6 * 2 ^ 60))
  else match s.lnCore p (hLn h) with
    | none => (6, 0, wd (6 * 2 ^ 60))
    | some c =>
      let k := s.core c
      let b := tblGet emptyBoard k.board (hSlot h)
      let live : Option (Nat × Nat × Word) :=
        if hKind h = 2 then
          match s.part p with
          | none => none
          | some x =>
            match x.launches.find? (fun l => l.bslot = hSlot h && l.seq = hSeq h && l.home = hLn h) with
            | none => none
            | some l =>
              let st := match l.state with | .waitdep => 0 | .queued => 0 | _ => 1
              some (st, l.endedGangs, wd (st * 2 ^ 60 + l.boardInfo + l.endedGangs))
        else if b.active && b.seq = hSeq h then
          match List.lookup (hSlot h) k.records with
          | none => none
          | some r =>
            some ((match r.state with | .waitdep => 0 | .waitin => 0 | .eligible => 0 | _ => 1), r.job.progress, wd (6 * 2 ^ 60))
        else none
      match live with
      | some x => x
      | none =>
        let e := b.ended (hSeq h)
        (e.1, e.2.1, if hKind h = 2 then wd (e.1 * 2 ^ 60 + e.2.2 + e.2.1) else wd (6 * 2 ^ 60))

/-- The states that count as ended: DONE, CANCELLED, FAULTED, GONE, INVALID (05 R174). -/
def isEnded (state : Nat) : Bool := state ≥ 2

end Sys2Proof.Machine
end

