-- ==== Sys2Proof/Machine/Control.lean ====
section
/-! DEFINITION. Core control space as it is read (07 R233; 15 R444): one doubleword at a time, and the words of trap frames
(06 R196, R197), which save records share. -/
namespace Sys2Proof.Machine
open Sys2Proof

/-! ### Frame words -/

def PostOp.code : PostOp → Nat
  | .st => 0 | .stff => 1
  | .red .add => 0x10 | .red .and => 0x11 | .red .or => 0x12 | .red .xor => 0x13 | .red .min => 0x14 | .red .max => 0x15
  | .red .minu => 0x16 | .red .maxu => 0x17 | .red .fadd => 0x18 | .red .fmax => 0x19 | .red .fmin => 0x1A
def PostOp.ofCode : Nat → PostOp
  | 0 => .st | 1 => .stff
  | 0x10 => .red .add | 0x11 => .red .and | 0x12 => .red .or | 0x13 => .red .xor | 0x14 => .red .min | 0x15 => .red .max
  | 0x16 => .red .minu | 0x17 => .red .maxu | 0x18 => .red .fadd | 0x19 => .red .fmax | _ => .red .fmin

/-- log2 of an access size. -/
def sizeLog : Nat → Nat
  | 1 => 0 | 2 => 1 | 4 => 2 | _ => 3

def hpendBits (st : Strand) : Nat :=
  ((span 0 16).map (fun i => if (st.pend.toList.getD i .clear).isHandle then 2 ^ i else 0)).sum
def predBits (st : Strand) : Nat := b01 st.p[0] + 2 * b01 st.p[1] + 4 * b01 st.p[2] + 8 * b01 st.p[3]
/-- PIX (01 R29). -/
def pixWord (st : Strand) : Word := match st.pix with | none => 0 | some n => wd (2 ^ 32 + n % 2 ^ 32)
/-- The binding of a register-mapped queue in PINS (log 21). -/
def qbCode : Option QBind → Nat
  | none => 0
  | some q => 512 * b01 q.outEn + 256 * b01 q.inEn + 16 * q.outRing + q.inRing
def qbOfCode (bound : Bool) (n : Nat) : Option QBind :=
  if bound then some { inRing := n % 16, outRing := n / 16 % 16, inEn := n / 256 % 2 = 1, outEn := n / 512 % 2 = 1 }
  else none
/-- PINC and the detector, with the queue binding and the LN of the core of the frame, for which 06 R196 gives PINS no layout (offset 0x058;
log 21). -/
def pinsWord (st : Strand) (ln : Nat) : Word :=
  wd (st.pinc + st.det.rev * 2 ^ 13 + st.det.win * 2 ^ 15 + st.det.prev * 2 ^ 22 + qbCode st.qb * 2 ^ 38 + ln * 2 ^ 48)

def Replay.words (e : Replay) : List Word :=
  [wd e.pa, e.data,
   wd (b01 e.rl * 2 ^ 32 + e.why * 2 ^ 24 + e.state * 2 ^ 16 + sizeLog e.size * 2 ^ 8 + e.op.code), e.va]

/-- The doublewords of a frame of the core of a LN, from 0x000 to 0x2AF (06 R196). -/
def Frame.words (f : Frame) (ln : Nat) : List Word :=
  let st := f.st
  [st.pc, causeWord f.kind f.ilen f.brkskip] ++ f.info.toList ++
  [st.statWord, st.fcw.toWord, wd (predBits st), st.jw, wd st.sid, pinsWord st ln, wd st.ldep, st.failrec.toWord,
   wd (hpendBits st), pixWord st] ++
  st.loops.toList.map (·.ls) ++ st.loops.toList.map (·.le) ++ st.loops.toList.map (·.lc) ++
  [wd st.fmta, wd st.fmtb, st.sca, st.scb, st.task, st.gang, st.crew, wd (st.fwd * 65536 + st.bounce)] ++
  st.g.toList ++ [wd st.rq.length, 0] ++ (st.rq.map Replay.words).flatten

/-- A strand that a stop has brought to its boundary, as frame n holds it: kind PREEMPT (06 R193, R202). -/
def stoppedFrame (st : Strand) : Frame :=
  { st := st, kind := 5, ilen := 2 * st.chain.length, info := #v[0, 0, 0, 0], brkskip := st.brkskip }
/-- The strand that stands stopped in slot n and whose state frame n therefore holds; a handler's does not (06 R202, R203). -/
def Core.stoppedAt (k : Core) (n : Nat) : Option Strand :=
  (List.lookup n k.slots).filter (fun st => (match st.run with | .stopped _ => true | _ => false) && st.handlerOf.isNone)
/-- Frame n, and whether it holds a strand (06 R196, R202). -/
def Core.frameAt (k : Core) (n : Nat) : Option (Frame × Bool) :=
  match List.lookup n k.frozen, k.stoppedAt n, List.lookup n k.oldFrames with
  | some f, _, _ => some (f, true)
  | none, some st, _ => some (stoppedFrame st, true)
  | none, none, some f => some (f, false)
  | none, none, none => none

/-- A doubleword of frame n (06 R196): zero where the frame has held no strand. -/
def Core.frameWord (k : Core) (n i : Nat) : Word :=
  match k.frameAt n with
  | none => 0
  | some (f, b) => if i = 1 then setBit ((f.words k.cfg.ln).getD 1 0) 33 b else (f.words k.cfg.ln).getD i 0

/-! ### Tables -/

def Crew.words (c : Crew) : List Word :=
  [wd (c.asid * 2 ^ 48 + b01 c.log * 2 ^ 41 + 2 ^ 40 + c.taskv % 2 ^ 27),
   wd (c.fmtb * 2 ^ 48 + c.fmta * 2 ^ 42 + c.size * 2 ^ 32 + c.gangv), c.sca, c.scb,
   wd (c.exited * 2 ^ 32 + c.arrived), wd (c.pendrel * 2 ^ 32 + c.phase), 0, 0]

/-- The words of a ring-table entry (09 R276). -/
def Ring.words (r : Ring) : List Word :=
  [wd (r.asid * 2 ^ 48 + 2 ^ 47 + r.mode * 2 ^ 45 + r.sizem1 * 2 ^ 37 + r.logent * 2 ^ 33 + r.base),
   wd (r.head * 2 ^ 48 + r.pub * 2 ^ 32 + r.claim * 2 ^ 16 + r.granted),
   wd (r.cbatch * 2 ^ 48 + r.pword * 2 ^ 16 + r.cword),
   wd (b01 r.qout * 2 ^ 9 + b01 r.qin * 2 ^ 8 + r.taskref)] ++
  (span 0 4).map (fun i =>
    let w : Nat → Nat := fun j => match r.waiters[j]? with | none => 0 | some x => x.1 * 65536 + x.2
    wd (w (2 * i) + w (2 * i + 1) * 2 ^ 32))

/-- The words of a credit-table entry (09 R287). -/
def Credit.words (e : Credit) : List Word :=
  [wd (e.ln * 2 ^ 48 + e.ring * 2 ^ 44 + b01 e.valid * 2 ^ 43 + b01 e.req * 2 ^ 42 + e.sizem1 * 2 ^ 28 + e.credits),
   wd (e.asid * 2 ^ 48)]

/-- Any strand of a launch slot on the core, in any form (10 R345, R346). -/
def Core.strandsOf (k : Core) (p : Strand → Bool) : List Strand :=
  (k.slots.map (·.2) ++ k.frozen.map (·.2.st) ++ k.cloak.map (·.st) ++ k.spill.map (·.st) ++
    (k.rescue.toList ++ k.admitting).map (·.st)).filter p

/-- Coats that wait on the core, in the order of 06 R203 with the other places after it (log 31). -/
def Core.coats (k : Core) : List Coat :=
  k.cloak ++ k.spill ++ k.rescue.toList ++ k.admitting ++ ((k.departures.filter (fun d => d.2.landed)).map (fun d => d.2.coat))

/-- IDLE of a launch slot (10 R346). -/
def Core.idle (k : Core) (l : Nat) : Bool :=
  (k.strandsOf (fun st => st.lslot = some l)).isEmpty &&
  k.records.all (fun r => r.2.lslot != some l) &&
  k.departures.all (fun d => d.2.coat.st.lslot != some l)

/-- COREID (07 R234). -/
def Core.idWord (k : Core) (c : CoreId) : Word := wd (coreBase c + k.cfg.ln)
/-- FEATCFG (07 R234). -/
def Core.featWord (k : Core) : Word := wd (k.cfg.partfeat * 65536 + k.cfg.mask)
/-- FWD (07 R231). -/
def Core.fwdWord (k : Core) : Word := wd (b01 k.cfg.fwdValid * 2 ^ 63 + k.cfg.heir)

/-- The debug module from 0x0A00 (15 R444). -/
def Core.debugWord (k : Core) (off : Nat) : Word :=
  let d := k.dbg
  let pair : List (Word × Word) → Nat → Word := fun l i =>
    let x := l.getD (i / 16) (0, 0)
    if i % 16 = 0 then x.1 else x.2
  if off = 0x0A00 then wd (2 * b01 d.stopped + b01 d.stop)
  else if off < 0x0A20 then 0
  else if off < 0x0A60 then pair d.bkpt.toList (off - 0x0A20)
  else if off < 0x0A80 then pair d.watch.toList (off - 0x0A60)
  else if off = 0x0A80 then d.wstat
  else if off = 0x0A88 then setBit d.trcctl 62 d.trcOn
  else if off = 0x0A90 then d.trcbuf
  else if off = 0x0A98 then d.trcptr
  else if off < 0x0B00 then 0
  else if off < 0x0B40 then pair d.shed.toList (off - 0x0B00)
  else if off < 0x0B80 then 0
  else if off < 0x0C00 then pair d.ctr.toList (off - 0x0B80)
  else if off < 0x0D00 then
    let i := (off - 0x0C00) / 4
    wd (tblGet 0 k.numevt i + tblGet 0 k.numevt (i + 1) * 2 ^ 32)
  else 0

def granule (pa : Nat) : Nat := pa / 16
/-- The full-empty bit of the granule that holds a location (05 R149; 07 R214; log 67). -/
def State.full (s : State) (pa : Nat) : Bool := !setHas s.feEmpty (granule pa)
def State.setFull (s : State) (g : Nat) (b : Bool) : State :=
  { s with feEmpty := if b then setDel s.feEmpty g else setAdd s.feEmpty g }

/-- 64 full-empty bits of the scratchpad from granule i on (07 R214). -/
def State.feWord (s : State) (c : CoreId) (i : Nat) : Word :=
  let g := (coreBase c + 0x20000000) / 16 + i
  wd (((span 0 64).map (fun j => if s.full (16 * (g + j)) then 2 ^ j else 0)).sum)

/-- The two areas whose contents are private to the device (07 R233). -/
def isPrivateArea (off : Nat) : Bool := 0x1000 ≤ off && off < 0x3000

/-- The doubleword at an offset of core control space, 8-byte aligned (07 R233). -/
def State.ctlWord (s : State) (c : CoreId) (off : Nat) : Word :=
  let k := s.core c
  if off = 0 then k.idWord c
  else if off = 0x08 then k.featWord
  else if off = 0x10 then k.cfg.proxy
  else if off = 0x18 then k.fwdWord
  else if off = 0x20 then wd k.cfg.cloaklim
  else if off = 0x28 then k.cfg.spillcfg
  else if off < 0x0200 then 0
  else if off < 0x0400 then
    match List.lookup ((off - 0x0200) / 64) k.crews with
    | none => 0
    | some x => x.words.getD (off % 64 / 8) 0
  else if off < 0x0800 then
    match List.lookup ((off - 0x0400) / 64) k.rings with
    | none => 0
    | some x => x.words.getD (off % 64 / 8) 0
  else if off < 0x0900 then
    match List.lookup ((off - 0x0800) / 16) k.credits with
    | none => 0
    | some x => x.words.getD (off % 16 / 8) 0
  else if off < 0x0A00 then
    let l := (off - 0x0900) / 32
    let x := tblGet { sent := 0, recv := 0 } k.lctr l
    match off % 32 / 8 with
    | 0 => wd x.sent
    | 1 => wd x.recv
    | 2 => wd (b01 (k.idle l))
    | _ => 0
  else if off < 0x1000 then k.debugWord off
  else if off < 0x3000 then Config.freeWord s.free
  else if off < 0x3200 then wd (tblGet 0 k.counters ((off - 0x3000) / 8))
  else if off < 0x4000 then 0
  else if off < 0x6000 then s.feWord c ((off - 0x4000) * 8)
  else if off < 0x8000 then 0
  else if off < 0x10000 then k.frameWord ((off - 0x8000) / 1024) (off % 1024 / 8)
  else 0

/-- A read of n bytes of control space (07 R233); a private area gives a fresh free value each time. -/
def State.ctlRead (s : State) (pa n : Nat) : Word × State :=
  let c := homeOf pa
  let off := offOf pa - 0x30000000
  let w := s.ctlWord c (off / 8 * 8)
  (wd (w.toNat / 2 ^ (8 * (off % 8)) % 2 ^ (8 * n)), if isPrivateArea off then { s with free := s.free + 1 } else s)

end Sys2Proof.Machine
end

