-- ==== Sys2Proof/Machine/Home.lean ====
section
/-! DEFINITION. The home of a location: write events with undo log, full-empty bits, mirrors and watchpoints; merge groups;
parked waiters; and the access of one request (05 R149, R150, R155 to R158; 07 R213 to R216; 13 R398, R399; 15 R433 to R439, R446). -/
namespace Sys2Proof.Machine
open Sys2Proof

-- Attributes of a leaf (11 R357).
def lfMidx (l : Word) : Nat := fld l 59 52
def lfHost (l : Word) : Bool := bitAt l 13
def lfMirror (l : Word) : Bool := bitAt l 12
def lfNolog (l : Word) : Bool := bitAt l 11
def lfExpendable (l : Word) : Bool := bitAt l 10
def lfSync (l : Word) : Bool := bitAt l 9
def lfSysatom (l : Word) : Bool := bitAt l 8

/-- Who makes a write event (15 R433, R434, R446): `kind` is KIND of R434, `leaf` is 0 when no leaf was consulted. -/
structure Writer where
  asid : Nat
  log : Bool
  leaf : Word
  kind : Nat
  strand : Bool
  ref : Option Ref
  /-- the strands of a merge group -/
  reds : List Nat := []
  deriving DecidableEq, Repr

/-- The writer that is a strand of a slot. -/
def strandWriter (c : CoreId) (n : Nat) (st : Strand) (leaf : Word) : Writer :=
  { asid := st.asid, log := st.stat.log, leaf := leaf, kind := 1, strand := true, ref := some ⟨c, n, st.uid⟩ }


/-- The number at n bytes of memory. -/
def State.memNat (s : State) (pa n : Nat) : Nat := ofLe (memRead s.mem pa n)

/-! ### Undo log (15 R433 to R439) -/

def LogSlot.off (l : LogSlot) : Bool := l.policy = 2
/-- The log slot that logs a context. -/
def State.logSlotOf (s : State) (p asid : Nat) : Option (Nat × LogSlot) :=
  match s.part p with
  | none => none
  | some x => x.logs.find? (fun l => l.2.asid = asid)

def shedSize (d : Word × Word) : Nat := fld d.1 63 48 * 512
def shedHead (d : Word × Word) : Nat := fld d.2 63 32
def shedTail (d : Word × Word) : Nat := fld d.2 31 0
def shedUsed (d : Word × Word) : Nat := (shedTail d + 2 ^ 32 - shedHead d) % 2 ^ 32
def shedAddr (c : CoreId) (d : Word × Word) (i : Nat) : Nat :=
  coreBase c + fld d.1 29 16 * 65536 + (if shedSize d = 0 then 0 else i % shedSize d) * 128
def Core.shed (k : Core) (n : Nat) : Word × Word := k.dbg.shed.toList.getD n (0, 0)
def Core.setShed (k : Core) (n : Nat) (d : Word × Word) : Core :=
  { k with dbg := { k.dbg with shed := k.dbg.shed.setIfInBounds n d } }

/-- The shed's head entries whose seam is no longer kept are discarded (15 R439 FORGET). -/
def State.dropHead : Nat → State → CoreId → Nat → List Nat → State
  | 0, s, _, _, _ => s
  | f + 1, s, c, n, keep =>
    let d := (s.core c).shed n
    if shedUsed d = 0 then s
    else
      let tag := s.memNat (shedAddr c d (shedHead d)) 8 / 2 ^ 40
      if keep.contains tag then s
      else State.dropHead f (s.modCore c (fun k => k.setShed n (d.1, setFld d.2 63 32 (shedHead d + 1)))) c n keep

/-- Drop the seams below the given ones on every core of a partition. -/
def State.dropHeads (s : State) (n : Nat) (keep : List Nat) : List CoreId → State
  | [] => s
  | c :: t => State.dropHeads (State.dropHead (shedUsed ((s.core c).shed n)) s c n keep) n keep t

/-- FORGET drops the oldest retained seam (15 R436, R439). -/
def State.forgetOldest (s : State) (p n : Nat) : State :=
  match s.part p with
  | none => s
  | some x =>
    match List.lookup n x.logs with
    | none => s
    | some l =>
      let seams := l.seams.drop 1
      (s.setPart p { x with logs := tblSet x.logs n { l with seams := seams } }).dropHeads n
        (l.cur :: seams.map (·.n)) x.live

/-- Make room under FORGET while an older seam than CUR is retained. -/
def State.makeRoom : Nat → State → CoreId → Nat → Nat → State
  | 0, s, _, _, _ => s
  | f + 1, s, c, p, n =>
    let d := (s.core c).shed n
    if shedUsed d < shedSize d then s
    else match s.part p with
      | none => s
      | some x =>
        match List.lookup n x.logs with
        | none => s
        | some l =>
          match l.seams with
          | [] => s
          | a :: _ => if a.n = l.cur then s else State.makeRoom f (s.forgetOldest p n) c p n

def State.modLog (s : State) (p n : Nat) (f : LogSlot → LogSlot) : State :=
  s.modPart p (fun x => match List.lookup n x.logs with
    | none => x
    | some l => { x with logs := tblSet x.logs n (f l) })

/-- The bytes of a shed entry (15 R434). The home keeps full-empty bits of the scratchpad and of pages marked SYNC (05 R149), and FEOLD of any
other line is 0 (19 R480). -/
def State.shedEntry (s : State) (c : CoreId) (seam asid kind line mask : Nat) (leaf : Word) : List Byte :=
  let kept := inScratch (offOf (64 * line)) || lfSync leaf
  let fe := ((span 0 4).map (fun i => if kept && s.full (16 * (4 * line + i)) then 2 ^ i else 0)).sum
  leBytes 8 (seam * 2 ^ 40 + asid * 2 ^ 24 + kind * 2 ^ 16 + fe) ++ leBytes 8 mask ++ leBytes 8 (s.now c) ++
    leBytes 8 (offOf (64 * line)) ++ memRead s.mem (64 * line) 64 ++ leBytes 32 0

/-- An append under STOP finds the shed full, or fewer entries free than the reserve (15 R439). -/
def LogSlot.short (l : LogSlot) (free : Nat) : Bool := l.policy = 0 && (free = 0 || free < l.rsv)
/-- One line of a logged event is appended to its home's shed (15 R434, R439). -/
def State.logLine (s : State) (c : CoreId) (w : Writer) (line mask : Nat) : State :=
  let p := s.partOf c
  match s.logSlotOf p w.asid with
  | none => s
  | some (n, l) =>
    if l.off then s
    else
      let s := if l.policy = 1 then State.makeRoom 64 s c p n else s
      let d := (s.core c).shed n
      let free := shedSize d - shedUsed d
      let s := if l.short free && !l.frozen then
          let vf := match s.part p with | none => 0 | some x => x.vf
          let s := s.modLog p n (fun l => { l with frozen := true })
          { s with pkg := { s.pkg with interrupts := s.pkg.interrupts ++ [(vf, 0x100 + n)] } }
        else s
      if free = 0 then s.modLog p n (fun l => { l with lost := true, seams := [] })
      else
        let e := s.shedEntry c l.cur w.asid w.kind line mask w.leaf
        let s := { s with mem := memWrite s.mem (shedAddr c d (shedTail d)) e }
        (s.modCore c (fun k => k.setShed n (d.1, setFld d.2 31 0 (shedTail d + 1)))).perf c 0x0E 1

def State.logLines (s : State) (c : CoreId) (w : Writer) : List (Nat × Nat) → State
  | [] => s
  | (line, mask) :: t => (s.logLine c w line mask).logLines c w t

/-! ### Write events -/

/-- The lines that bytes touch, with their byte masks. -/
def addMask (l : List (Nat × Nat)) (pa : Nat) : Nat → List (Nat × Nat)
  | 0 => l
  | n + 1 => addMask (tblSet l (pa / 64) (tblGet 0 l (pa / 64) ||| 2 ^ (pa % 64))) (pa + 1) n
def linesOf (runs : List (Nat × List Byte)) (fes : List (Nat × Bool)) : List (Nat × Nat) :=
  let l := runs.foldl (fun l r => addMask l r.1 r.2.length) []
  fes.foldl (fun l f => tblSet l (f.1 / 4) (tblGet 0 l (f.1 / 4))) l

/-- The granules that a run covers whole (07 R213). -/
def wholeGranules (pa n : Nat) : List Nat :=
  let a := (pa + 15) / 16
  let b := (pa + n) / 16
  span a (b - a)

/-- A read of n bytes corrects the single-bit errors it meets: the home writes those granules back and counts them (07 R213). -/
def State.correct (s : State) (c : CoreId) (pa n : Nat) : State :=
  if s.soft.isEmpty then s
  else
    let hit := (span (pa / 16) ((pa + n - 1) / 16 + 1 - pa / 16)).filter (fun g => setHas s.soft g)
    if hit.isEmpty then s
    else ({ s with soft := s.soft.filter (fun g => !hit.contains g) } : State).countCorrected c hit.length

/-- The entry of the partition's mirror table as memory holds it (11 R365): home PA, size code and the mirrors (LN, OFF). -/
def State.mirrorEntry (s : State) (c : CoreId) (midx : Nat) : Option (Nat × Nat × List (Nat × Nat)) :=
  let t := (s.core c).cfg.mirtab
  if bitAt t 0 then
    let a := s.lands (fld t 51 7 * 128 + 128 * midx)
    let h := wd (s.memNat a 8)
    some (fld h 51 0, fld h 59 58,
      (span 0 (fld h 63 60)).map (fun i =>
        let m := wd (s.memNat (a + 8 + 8 * i) 8)
        (fld m 63 48, fld m 29 0)))
  else none

/-- Update sequences: a page's at its home, and that of the copy at a mirror (13 R399; log 22). -/
def mirKeyHome (midx : Nat) : Nat := midx
def mirKeyCopy (midx ln : Nat) : Nat := 65536 + midx * 65536 + ln
def State.mirrorSeqOf (s : State) (p key : Nat) : Nat :=
  match s.part p with
  | none => 0
  | some x => tblGet 0 x.mirrorSeq key
def State.setMirrorSeq (s : State) (p key v : Nat) : State :=
  s.modPart p (fun x => { x with mirrorSeq := tblSet x.mirrorSeq key v })

/-- The bytes of a page by its size code in the mirror table (11 R365). -/
def mirrorPage (size : Nat) : Nat := if size = 2 then 2 ^ 26 else 2 ^ 16
/-- The PA of the page that a leaf names. -/
def leafPage (leaf : Word) (size : Nat) : Nat := fld leaf 51 16 * 65536 / mirrorPage size * mirrorPage size

/-- One update goes to every mirror: the event's bytes by their offsets in the page. -/
def sendMirrors (s : State) (c : CoreId) (p midx seq : Nat) (runs : List (Nat × List Byte)) (strands : List Nat) :
    List (Nat × Nat) → State
  | [] => s
  | (ln, o) :: t =>
    match s.lnCore p ln with
    | none => sendMirrors s c p midx seq runs strands t
    | some d =>
      sendMirrors (s.send c d false none (.mirrorUpdate midx seq (runs.map (fun r => (o + r.1, r.2))) strands)) c p midx seq runs strands t

/-- The home numbers a write event on a MIRROR page and posts it whole to every mirror of its table entry, where the entry is the
page's (11 R366; 13 R399). A heir that stands for the home posts at the same offsets of the page (07 R232). -/
def State.mirrorRuns (s : State) (c : CoreId) (w : Writer) (runs : List (Nat × List Byte)) : State :=
  let midx := lfMidx w.leaf
  match s.mirrorEntry c midx with
  | none => s
  | some (home, size, ms) =>
    if home != leafPage w.leaf size || runs.isEmpty then s
    else
      let p := s.partOf c
      let q := (s.mirrorSeqOf p (mirKeyHome midx) + 1) % 2 ^ 32
      sendMirrors (s.setMirrorSeq p (mirKeyHome midx) q) c p midx q (runs.map (fun r => (offOf r.1 - offOf home, r.2)))
        (w.reds ++ (w.ref.toList.map (·.uid))) ms

/-- A watchpoint match (15 R446): the offset of the first byte of [lo, hi] in the runs or granules, with its data. -/
def watchHit (asid : Nat) (w : Word × Word) (runs : List (Nat × List Byte)) (fes : List (Nat × Bool)) :
    Option (Nat × Word) :=
  if bitAt w.1 63 && (bitAt w.2 47 || fld w.2 63 48 = asid) then
    let lo := fld w.1 29 0
    let hi := fld w.2 29 0
    let all := runs.map (fun r => (offOf r.1, r.2.length, ofLe (r.2.take 8))) ++
      fes.map (fun f => (offOf (16 * f.1), 16, 0))
    match all.find? (fun r => r.1 ≤ hi && lo < r.1 + r.2.1) with
    | none => none
    | some r => some (max r.1 lo, wd r.2.2)
  else none

/-- Watchpoint 0 before watchpoint 1. A strand's match is reported to the strand; any other sets HIT (15 R446). -/
def State.watch (s : State) (c : CoreId) (w : Writer) (runs : List (Nat × List Byte)) (fes : List (Nat × Bool)) :
    State × Option (Nat × Word × Nat) :=
  let k := s.core c
  let hits := ((span 0 2).filterMap (fun i =>
    match watchHit w.asid (k.dbg.watch.toList.getD i (0, 0)) runs fes with
    | none => none
    | some h => some (h.1, h.2, i)))
  match hits with
  | [] => (s, none)
  | (off, data, i) :: _ =>
    if w.strand then (s, some (coreBase c + off, data, i))
    else
      let ws := setFld (setFld (setBit k.dbg.wstat (62 + i) true) 47 32 w.asid) 29 0 off
      ((s.setCore c { k with dbg := { k.dbg with wstat := ws } }).trace c 0x0D 0 i, none)

def writeRuns (m : List Host.Cell) : List (Nat × List Byte) → List Host.Cell
  | [] => m
  | (pa, d) :: t => writeRuns (memWrite m pa d) t
def State.setFulls (s : State) : List (Nat × Bool) → State
  | [] => s
  | (g, b) :: t => (s.setFull g b).setFulls t

/-- One write event at the home c (13 R398): the undo log, the bytes, the error marks of granules written whole, the
full-empty bits, the mirrors and the watchpoints. -/
def State.event (s : State) (c : CoreId) (runs : List (Nat × List Byte)) (fes : List (Nat × Bool)) (w : Writer) :
    State × Option (Nat × Word × Nat) :=
  let s := if w.log && !lfNolog w.leaf then s.logLines c w (linesOf runs fes) else s
  let whole := (runs.map (fun r => wholeGranules r.1 r.2.length)).flatten
  let s := { s with mem := writeRuns s.mem runs,
                    ecc := if s.ecc.isEmpty then [] else s.ecc.filter (fun g => !whole.contains g),
                    soft := if s.soft.isEmpty then [] else s.soft.filter (fun g => !whole.contains g) }
  let s := runs.foldl (fun s r => s.correct c r.1 r.2.length) s
  let s := s.setFulls fes
  let s := if lfMirror w.leaf then s.mirrorRuns c w runs else s
  s.watch c w runs fes

/-! ### One access at its home -/

/-- The granules of [pa, pa + n) that hold an uncorrectable error (07 R213). -/
def State.badGranule (s : State) (pa n : Nat) : Option Nat :=
  if s.ecc.isEmpty then none
  else (span (pa / 16) ((pa + n - 1) / 16 + 1 - pa / 16)).find? (fun g => setHas s.ecc g)

/-- What a read of n bytes at the home gives: zeros, counted, where an EXPENDABLE leaf meets an uncorrectable error
(00 R13); `error` is the PA of the granule otherwise. -/
inductive ReadRes where
  | ok (v : Nat) (s : State)
  | error (pa : Nat)

def State.readAt (s : State) (c : CoreId) (pa n : Nat) (leaf : Word) : ReadRes :=
  if inControl (offOf pa) && !isHost pa then
    let r := s.ctlRead pa n
    .ok r.1.toNat r.2
  else match s.badGranule pa n with
    | none => .ok (s.memNat pa n) (s.correct c pa n)
    | some g => if lfExpendable leaf then .ok 0 (s.countError c 2) else .error (16 * g)

/-- The new value of an atomic, and whether it writes (05 R155). -/
def amoNew (op : AmoOp) (size old : Nat) (b cc : Word) : Nat × Bool :=
  let m := 2 ^ (8 * size)
  match op with
  | .swap => (b.toNat % m, true)
  | .cas => if old = b.toNat % m then (cc.toNat % m, true) else (old, false)
  | .add => ((old + b.toNat) % m, true)
  | .max => (if sextInt old (8 * size) ≥ sextInt b.toNat (8 * size) then old else b.toNat % m, true)

/-- Whether a wait is satisfied by a word (05 R170). -/
def waitHolds (op : WaitOp) (size word : Nat) (v : Word) : Bool :=
  match op with
  | .eq => word = v.toNat % 2 ^ (8 * size)
  | .ne => word != v.toNat % 2 ^ (8 * size)
  | .ge => sextInt word (8 * size) ≥ sextInt v.toNat (8 * size)
  | .zero => word = 0
  | .any => false

/-- What the home makes of an access: an answer with the bytes it wrote (address and length), or the access waits. -/
inductive Served where
  | done (a : Answer) (wrote : List (Nat × Nat)) (s : State)
  | wait

def Answer.plain (v : Word) (flag : Bool) : Answer := .value v flag none 0

/-- The update sequence of the copy that core c holds of a MIRROR page (13 R399). -/
def State.copySeq (s : State) (c : CoreId) (leaf : Word) : Nat :=
  if lfMirror leaf then
    let home := homeOf (s.lands (fld leaf 51 16 * 65536))
    s.mirrorSeqOf (s.partOf c) (if home = c then mirKeyHome (lfMidx leaf) else mirKeyCopy (lfMidx leaf) (s.core c).cfg.ln)
  else 0

/-- Up to 16 bytes of one granule, or a stretch of control space: the bytes read, or the PA of a bad granule (00 R13; 13 R397). -/
def State.serveGet (s : State) (c : CoreId) (r : MemReq) (n : Nat) : Served :=
  if inControl (offOf r.pa) then
    .done (.bytes (((span 0 ((n + 7) / 8)).map (fun i =>
      leBytes 8 (s.ctlWord c (offOf r.pa - 0x30000000 + 8 * i)).toNat)).flatten.take n) 0) [] s
  else match s.badGranule r.pa n with
    | none => .done (.bytes (memRead s.mem r.pa n) (s.copySeq c r.leaf)) [] (s.correct c r.pa n)
    | some g =>
      if lfExpendable r.leaf then
        .done (.bytes ((span r.pa n).map (fun a => if setHas s.ecc (granule a) then 0 else memGet s.mem a)) 0) []
          (s.countError c 2)
      else .done (.uncorrectable (16 * g)) [] s

/-- A load at the home, changing the full-empty bit when asked (05 R149). -/
def State.serveLoad (s : State) (c : CoreId) (r : MemReq) (n : Nat) (fe : Option Bool) (w : Writer) : Served :=
  match s.readAt c r.pa n r.leaf with
  | .error g => .done (.uncorrectable g) [] s
  | .ok v s' =>
    let q := s.copySeq c r.leaf
    match fe with
    | none => .done (.value (wd v) (s.full r.pa) none q) [] s'
    | some b =>
      let e := s'.event c [] [(granule r.pa, b)] w
      .done (.value (wd v) true e.2 q) [(16 * granule r.pa, 0)] e.1

/-- A store at the home. -/
def State.serveStore (s : State) (c : CoreId) (r : MemReq) (n : Nat) (d : Word) (fes : List (Nat × Bool)) (w : Writer) :
    Served :=
  let e := s.event c [(r.pa, leBytes n d.toNat)] fes w
  .done (.value 0 true e.2 0) [(r.pa, n)] e.1

/-- The access of one request, after the merge group of its line has closed (05 R149, R155, R156, R166, R170). -/
def State.serveOne (s : State) (c : CoreId) (r : MemReq) (w : Writer) : Served :=
  match r.op with
  | .load n fe =>
    let full := s.full r.pa
    match fe with
    | .wait => if full then s.serveLoad c r n none w else .wait
    | .waitClear => if full then s.serveLoad c r n (some false) w else .wait
    | _ => s.serveLoad c r n none w
  | .store n d fe =>
    match fe with
    | .fill => s.serveStore c r n d [(granule r.pa, true)] w
    | .waitFill => if s.full r.pa then .wait else s.serveStore c r n d [(granule r.pa, true)] w
    | _ => s.serveStore c r n d [] w
  | .amo op n b cc =>
    match s.readAt c r.pa n r.leaf with
    | .error g => .done (.uncorrectable g) [] s
    | .ok old s =>
      let x := amoNew op n old b cc
      let v := Word.ofExact (sextInt old (8 * n))
      if x.2 then
        let e := s.event c [(r.pa, leBytes n x.1)] [] w
        .done (.value v true e.2 0) [(r.pa, n)] e.1
      else .done (.value v false none 0) [] s
  | .add d =>
    match s.readAt c r.pa 8 r.leaf with
    | .error g => .done (.uncorrectable g) [] s
    | .ok old s =>
      let e := s.event c [(r.pa, leBytes 8 (old + d.toNat))] [] w
      .done (.value (wd old) true e.2 0) [(r.pa, 8)] e.1
  | .wait op n v =>
    match s.readAt c r.pa n r.leaf with
    | .error g => .done (.uncorrectable g) [] s
    | .ok x s => if waitHolds op n x v then .done (.plain (wd x) true) [] s else .wait
  | .post op n d => s.serveStore c r n d (match op with | .stff => [(granule r.pa, true)] | _ => []) w
  | .get n => s.serveGet c r n
  | .put data =>
    let e := s.event c [(r.pa, data)] [] w
    .done (.value 0 true e.2 0) [(r.pa, data.length)] e.1
  | .mark _ =>
    let e := s.event c [] [(granule r.pa, false)] w
    .done (.value 0 true e.2 0) [(16 * granule r.pa, 0)] e.1

/-! ### Parked waiters (05 R150) -/

/-- The size of a request's access. -/
def MemReq.size (r : MemReq) : Nat :=
  match r.op with
  | .load n _ => n | .store n _ _ => n | .amo _ n _ _ => n | .add _ => 8 | .wait _ n _ => n | .post _ n _ => n
  | .get n => n | .put d => d.length | .mark n => n

/-- The strand of a reference, if it still stands in its slot. -/
def State.strandOf (s : State) (r : Ref) : Option Strand :=
  match s.strandAt r.core r.slot with
  | none => none
  | some st => if st.uid = r.uid then some st else none

/-- The writer behind a request: the strand that sent it. -/
def State.writerOf (s : State) (r : Ref) (leaf : Word) : Writer :=
  match s.strandOf r with
  | none => { asid := 0, log := false, leaf := leaf, kind := 1, strand := true, ref := some r }
  | some st => strandWriter r.core r.slot st leaf

/-- The answer travels back on the return class with the tag of its request (10 R346; 12 R374). -/
def State.answer (s : State) (c : CoreId) (ref : Ref) (r : MemReq) (a : Answer) (tag : Option Tag) : State :=
  s.send c ref.core true tag (.reply ref r a)

/-- A waiter for any write is satisfied by a write to its location (05 R170). -/
def wroteAny (r : MemReq) (wrote : List (Nat × Nat)) : Bool :=
  match r.op with
  | .wait .any n _ => wrote.any (fun x => x.1 < r.pa + n && r.pa < x.1 + x.2)
  | _ => false
/-- A waiter is tested after a write to its granule or word. -/
def touches (r : MemReq) (wrote : List (Nat × Nat)) : Bool :=
  wrote.any (fun x => x.1 / 16 ≤ r.pa / 16 && r.pa / 16 ≤ (x.1 + x.2 - (if x.2 = 0 then 0 else 1)) / 16)

/-- The first parked request that the bytes just written satisfy, and what serving it does. -/
def State.firstServed (s : State) (c : CoreId) (wrote : List (Nat × Nat)) (i : Nat) :
    List Waiter → Option (Nat × Waiter × Answer × List (Nat × Nat) × State)
  | [] => none
  | x :: t =>
    if wroteAny x.req wrote then
      match s.readAt c x.req.pa 8 x.req.leaf with
      | .ok v s' => some (i, x, .plain (wd v) true, [], s')
      | .error g => some (i, x, .uncorrectable g, [], s)
    else if touches x.req wrote then
      match s.serveOne c x.req (s.writerOf x.ref x.req.leaf) with
      | .done a w s' => some (i, x, a, w, s')
      | .wait => s.firstServed c wrote (i + 1) t
    else s.firstServed c wrote (i + 1) t

/-- Parked requests are served in the event that changes their word or bit, the first to arrive first (05 R150). -/
def State.serveWaiters : Nat → State → CoreId → List (Nat × Nat) → State
  | 0, s, _, _ => s
  | f + 1, s, c, wrote =>
    if wrote.isEmpty then s
    else match s.firstServed c wrote 0 (s.core c).waiters with
      | none => s
      | some (i, x, a, w, s') =>
        let s := (s'.modCore c (fun k => { k with waiters := dropAt k.waiters i })).answer c x.ref x.req a x.tag
        State.serveWaiters f s c (wrote ++ w)

/-- Serve the waiters of bytes just written. -/
def State.wake (s : State) (c : CoreId) (wrote : List (Nat × Nat)) : State :=
  match (s.core c).waiters with
  | [] => s
  | l => State.serveWaiters l.length s c wrote

/-! ### Merge groups (05 R158; 07 R215, R216) -/

/-- The value of one reduction (05 R157). -/
def redApply (op : RedOp) (size a b : Nat) : Nat × Flags :=
  let m := 2 ^ (8 * size)
  let sa := sextInt a (8 * size)
  let sb := sextInt b (8 * size)
  match op with
  | .add => ((a + b) % m, Flags.none)
  | .and => (a &&& b, Flags.none)
  | .or => (a ||| b, Flags.none)
  | .xor => (a ^^^ b, Flags.none)
  | .min => (if sa ≤ sb then a else b, Flags.none)
  | .max => (if sa ≥ sb then a else b, Flags.none)
  | .minu => (if a ≤ b then a else b, Flags.none)
  | .maxu => (if a ≥ b then a else b, Flags.none)
  | .fadd => fpAdd .f32 .rne (decFp .f32 a) (decFp .f32 b)
  | .fmax => fpMinMax .f32 true a b
  | .fmin => fpMinMax .f32 false a b
def RedOp.isFp : RedOp → Bool
  | .fadd | .fmax | .fmin => true
  | _ => false

/-- A stored NaN or verdict NaN is replaced by the default NaN before a partial is applied (05 R158). -/
def redStored (op : RedOp) (v : Nat) : Nat × Bool :=
  if op.isFp && (decFp .f32 v).isNaN then (Fmt.f32.nan, true) else (v, false)

/-- The bytes a closing group writes, and its numeric events: one set for each location's rounding, and an IV for a stored NaN
(05 R158; 15 R450). -/
def State.groupRuns (s : State) (g : Merge) (zeros : List Nat) : List (Nat × Nat) → List (Nat × List Byte) × List (Nat × Nat)
  | [] => ([], [])
  | (off, v) :: t =>
    let pa := 64 * g.line + off
    let old := if zeros.contains (granule pa) then 0 else s.memNat pa g.size
    let x := redStored g.op old
    let r := redApply g.op g.size x.1 v
    let u := s.groupRuns g zeros t
    ((pa, leBytes g.size r.1) :: u.1, (3, b01 x.2) :: flagKinds r.2 0 ++ u.2)

def reportTags (s : State) (c : CoreId) (g : Merge) (f : FaultInfo) : List Tag → State
  | [] => s
  | t :: l => reportTags (s.reportFault c g.asid (some t.lslot) 0 0 0 0 f) c g f l

/-- The combined values of a group reach memory in one event (05 R158; 07 R216). -/
def State.applyGroup (s : State) (c : CoreId) (g : Merge) (zeros : List Nat) : State :=
  let s := if zeros.isEmpty then s else s.countError c 2
  let r := s.groupRuns g zeros g.vals
  let leaf := if g.logged then setFld g.leaf 11 11 0 else g.leaf
  let w : Writer := { asid := g.asid, log := g.logged, leaf := leaf, kind := 2, strand := false, ref := none, reds := g.strands }
  let s := if g.op.isFp then s.modCore c (fun k => numEvents k g.opener r.2) else s
  ((s.event c r.1 [] w).1).wake c (r.1.map (fun x => (x.1, x.2.length)))

/-- A merge group applies as one write event (07 R216). -/
def State.closeGroup (s : State) (c : CoreId) (i : Nat) (g : Merge) : State :=
  let s := (s.modCore c (fun k => { k with merges := dropAt k.merges i })).count c 51 1
  let bad := (g.vals.map (fun v => granule (64 * g.line + v.1))).filter (fun x => setHas s.ecc x)
  match bad with
  | b :: _ =>
    if g.expendable then s.applyGroup c g bad
    else reportTags (s.countError c 2) c g
      (fUncorrectable (if inScratch (offOf (16 * b)) then 1 else 2) (16 * b)) g.tags
  | [] => s.applyGroup c g []

/-- Any access that is not a merging RED closes the open group of its line (05 R156, R158). -/
def State.closeLine (s : State) (c : CoreId) (line : Nat) : State :=
  match (s.core c).merges with
  | [] => s
  | l =>
    match indexOf (fun g => g.line = line) l 0 with
    | none => s
    | some i =>
      match l[i]? with
      | none => s
      | some g => s.closeGroup c i g

/-- Close the groups of the lines of [pa, pa + n). -/
def State.closeLines (s : State) (c : CoreId) (pa n : Nat) : State :=
  if (s.core c).merges.isEmpty then s
  else (span (pa / 64) ((pa + n - 1) / 64 + 1 - pa / 64)).foldl (fun s l => s.closeLine c l) s

/-- The value a location's partial starts at, with the IV of a signalling operand (05 R158). -/
def redOpen (op : RedOp) (v : Nat) : Nat × Bool :=
  if op.isFp && (decFp .f32 v).isNaN then (Fmt.f32.nan, (decFp .f32 v).isSNaN) else (v, false)

/-- A reduction that reaches its home (07 R215): `p` carries it, with its tag, context, log flag and leaf. -/
structure RedIn where
  pa : Nat
  op : RedOp
  size : Nat
  data : Nat
  asid : Nat
  logged : Bool
  leaf : Word
  lslot : Option Nat
  part : Nat
  uid : Nat

def Merge.enter (g : Merge) (r : RedIn) (now : Nat) : Merge × Flags :=
  let off := r.pa % 64
  let x := redOpen r.op r.data
  let u : Nat × Flags :=
    match List.lookup off g.vals with
    | none => (x.1, { Flags.none with iv := x.2 })
    | some p =>
      if r.op = .fadd && (decFp .f32 p).isNaN then (p, Flags.none)
      else
        let z := redApply r.op r.size p x.1
        (z.1, { z.2 with iv := z.2.iv || x.2 })
  let tags := match r.lslot with
    | none => g.tags
    | some l => if g.tags.contains ⟨r.part, l⟩ then g.tags else g.tags ++ [⟨r.part, l⟩]
  ({ g with vals := tblSet g.vals off u.1, lastAt := now, logged := g.logged || (r.logged && !lfNolog r.leaf),
            expendable := g.expendable && lfExpendable r.leaf, tags := tags, leaf := if lfMirror g.leaf then g.leaf else r.leaf,
            strands := if g.strands.contains r.uid then g.strands else g.strands ++ [r.uid] }, u.2)

/-- The reduction enters its line's group, opening one when there is none (07 R215). -/
def State.redEnter (s : State) (c : CoreId) (r : RedIn) : State :=
  let line := r.pa / 64
  let s := match (s.core c).merges.find? (fun g => g.line = line) with
    | none => s
    | some g => if g.op = r.op && g.size = r.size then s else s.closeLine c line
  let s := match (s.core c).merges.find? (fun g => g.line = line) with
    | some _ => s
    | none =>
      let s := match (s.core c).merges with
        | [] => s
        | g :: t => if t.length + 1 ≥ 64 then s.closeGroup c 0 g else s
      let g : Merge := { line := line, op := r.op, size := r.size, vals := [], opened := s.cycle, lastAt := s.cycle,
                         logged := false, expendable := true, leaf := r.leaf, tags := [], strands := [],
                         asid := r.asid, opener := r.lslot }
      s.modCore c (fun k => { k with merges := k.merges ++ [g] })
  s.modCore c (fun k =>
    match indexOf (fun g => g.line = line) k.merges 0 with
    | none => k
    | some i =>
      match k.merges[i]? with
      | none => k
      | some g =>
        let x := g.enter r s.cycle
        let k := { k with merges := setAt k.merges i x.1 }
        if r.op.isFp then numEvents k r.lslot (flagKinds x.2 0) else k)

/-- Every open merge group of a core closes: its write queue drains (05 R158; 15 R437 step 3). -/
def State.closeAll : Nat → State → CoreId → State
  | 0, s, _ => s
  | f + 1, s, c =>
    match (s.core c).merges with
    | [] => s
    | g :: _ => State.closeAll f (s.closeGroup c 0 g) c

/-- Every post of the strand on its wafer is acknowledged, and its LDS replies have landed (05 R177). -/
def quietNear (c : CoreId) (st : Strand) : Bool :=
  st.lds.isEmpty && st.posts.all (fun p => isHost p.pa || (homeOf p.pa).w != c.w)
/-- The write queues of a list that hold a group chosen by `f` drain. -/
def State.drainWhere (s : State) (f : Merge → Bool) (cs : List CoreId) : State :=
  overCores s (fun s d => if (s.core d).merges.any f then State.closeAll (s.core d).merges.length s d else s) cs
/-- Once a releasing strand's reductions are acknowledged, the write queues that hold them drain (05 R146, R158; 13 R407; log 9). -/
def State.drainQueue (s : State) (c : CoreId) (st : Strand) : State :=
  if quietNear c st then s.drainWhere (fun g => g.strands.contains st.uid) (s.cores.map (fun e => coreOfKey e.1)) else s

/-! ### Engine and message writes at the home -/

/-- A write event by an engine or a message, with the merge groups of its lines closed first and waiters served. -/
def State.put (s : State) (c : CoreId) (runs : List (Nat × List Byte)) (fes : List (Nat × Bool)) (w : Writer) :
    State × Option (Nat × Word × Nat) :=
  let s := runs.foldl (fun s r => s.closeLines c r.1 r.2.length) s
  let s := fes.foldl (fun s f => s.closeLine c (f.1 / 4)) s
  let e := s.event c runs fes w
  (e.1.wake c (runs.map (fun r => (r.1, r.2.length)) ++ fes.map (fun f => (16 * f.1, 0))), e.2)

end Sys2Proof.Machine
end

