-- ==== Sys2Proof/Machine/ControlWrite.lean ====
section
/-! DEFINITION. Writes of core control space (07 R227, R231, R233; 15 R444), and one access at its home over memory or control
space. -/
namespace Sys2Proof.Machine
open Sys2Proof

/-- The bytes of a store in the doubleword at its aligned offset, and the mask of the bits written. -/
def ctlPlace (off n : Nat) (v : Nat) : Nat × Nat :=
  ((v % 2 ^ (8 * n)) * 2 ^ (8 * (off % 8)), (2 ^ (8 * n) - 1) * 2 ^ (8 * (off % 8)))
/-- A register with the written bits replaced. -/
def ctlMerge (old : Word) (v mask : Nat) : Word := wd (old.toNat - (old.toNat &&& mask) + (v &&& mask))
/-- Only the given bits of a register take the written value. -/
def ctlTake (old new : Word) (bits : Nat) : Word := ctlMerge old new.toNat bits

/-- A handler's write of a frame doubleword (06 R196): ROP and reserved offsets are ignored. -/
def Frame.write (f : Frame) (i : Nat) (v : Word) : Frame :=
  let st := f.st
  match i with
  | 0 => { f with st := { st with pc := v } }
  | 1 => { f with brkskip := bitAt v 32 }
  | 6 => { f with st := { st with stat := { st.stat with wtrap := bitAt v 5, heavy := bitAt v 1 } } }
  | 7 => { f with st := { st with fcw := Fcw.ofWord v } }
  | 8 => { f with st := { st with p := (((st.p.set 0 (bitAt v 0)).set 1 (bitAt v 1)).set 2 (bitAt v 2)).set 3 (bitAt v 3) } }
  | 9 => { f with st := { st with jw := setFld v 2 0 0 } }
  | 13 => { f with st := { st with failrec := FailRec.ofWord v } }
  | 14 =>
    { f with st := { st with pend := Vector.ofFn (fun r : Fin 16 =>
        if (st.pend[r]).isHandle && !bitAt v r.val then .clear else st.pend[r]) } }
  | _ =>
    if 36 ≤ i && i < 52 then
      { f with st := { st with g := st.g.setIfInBounds (i - 36) v } }
    else f

/-- The write reaches the strand that frame n holds, or what the frame still shows (06 R196). -/
def Core.frameWrite (k : Core) (n i : Nat) (v : Word) : Core :=
  match List.lookup n k.frozen, k.stoppedAt n, List.lookup n k.oldFrames with
  | some f, _, _ => { k with frozen := tblSet k.frozen n (f.write i v) }
  | none, some st, _ =>
    let f := (stoppedFrame st).write i v
    { k with slots := tblSet k.slots n { f.st with brkskip := f.brkskip } }
  | none, none, some f => { k with oldFrames := tblSet k.oldFrames n (f.write i v) }
  | none, none, none => k

/-- Registers of the debug module take their RWP fields (15 R444). -/
def Debug.write (d : Debug) (off : Nat) (v : Word) (vm mask : Nat) : Debug :=
  let pairSet : (Word × Word) → Bool → Word → (Word × Word) := fun p lo w => if lo then (w, p.2) else (p.1, w)
  if off < 0x0A20 then d
  else if off < 0x0A60 then
    let i := (off - 0x0A20) / 16
    let lo := off % 16 = 0
    let bits := if lo then 2 ^ 56 - 1 else 2 ^ 17 - 1
    { d with bkpt := d.bkpt.setIfInBounds i (pairSet (d.bkpt.toList.getD i (0, 0)) lo (ctlTake 0 v bits)) }
  else if off < 0x0A80 then
    let i := (off - 0x0A60) / 16
    let lo := off % 16 = 0
    let bits := if lo then 2 ^ 63 + (2 ^ 30 - 1) else 2 ^ 64 - 2 ^ 47 + (2 ^ 30 - 1)
    { d with watch := d.watch.setIfInBounds i (pairSet (d.watch.toList.getD i (0, 0)) lo (ctlTake 0 v bits)) }
  else if off = 0x0A80 then
    let clr := vm &&& mask &&& (2 ^ 63 + 2 ^ 62)
    { d with wstat := wd (d.wstat.toNat - (d.wstat.toNat &&& clr)) }
  else if off = 0x0A88 then
    let t := ctlTake 0 v (2 ^ 63 + 2 ^ 61 + (2 ^ 48 - 2 ^ 32))
    let on := if !bitAt t 63 then false else if fld t 47 40 = 0 then true else d.trcOn
    { d with trcctl := t, trcOn := on }
  else if off = 0x0A90 then { d with trcbuf := ctlTake 0 v (2 ^ 48 - 2 ^ 32 + (2 ^ 30 - 2 ^ 16)) }
  else if off = 0x0A98 then (if v = 0 then { d with trcptr := 0 } else d)
  else d

/-! ### Stops of a core (15 R445) -/

/-- POS of a vector instruction at a progress point (06 R201; 08 R272). -/
def VProg.pix (h : VProg) : Nat := 512 * b01 h.rerun + h.pos
def VProg.atPoint (h : VProg) : Bool := h.unit != 0 && h.pos % h.unit = 0
/-- A block is being moved, or a holding instruction stands between two of its progress points (06 R201, R204; 15 R439, R445). -/
def Strand.midBulk (st : Strand) : Bool :=
  match st.bulk with
  | none => false
  | some b => b.phase != 0 || b.pos < b.len
def Strand.midHold (st : Strand) : Bool :=
  st.midBulk ||
  (match st.hold with
   | none => false
   | some h => !h.atPoint)

/-- The strand's own parked request, which it waits for; a full-empty LDS that is parked goes on (05 R153, R172, R183). -/
def Waiter.holds (w : Waiter) (uid : Nat) : Bool :=
  w.ref.uid = uid && (match w.req.cont with | .lds _ _ => false | _ => true)
/-- A request that its home has not served is taken back: a local one and a wait in host memory at once, a remote one by a
withdrawal; one that the home has served, or that is no wait, is awaited (05 R172, R183, R184). -/
def State.withdraw (s : State) (c : CoreId) (n : Nat) (st : Strand) : State :=
  match st.run with
  | .await cls { cont := .barc _, .. } => s.putStrand c n { st with run := .blocked cls, deadline := none }
  | .await cls r =>
    let h := homeOf r.pa
    if isHost r.pa then s.putStrand c n { st with run := .blocked cls, deadline := none } else
    match (s.core c).waiters.find? (fun w => w.isLocal && w.holds st.uid) with
    | some _ =>
      (s.modCore c (fun k => { k with waiters := k.waiters.filter (fun w => !(w.isLocal && w.holds st.uid)) })).putStrand c n
        { st with run := .blocked cls, deadline := none }
    | none =>
      if (s.core h).waiters.any (fun w => !w.isLocal && w.holds st.uid) then
        if s.net.any (fun m => match m.body with | .withdraw r _ => r.uid = st.uid | _ => false) then s
        else s.send c h false (s.tagOf c st.lslot) (.withdraw ⟨c, n, st.uid⟩ 0)
      else s
  | _ => s

/-- Every strand of a core at its boundary. -/
def State.withdrawAll (s : State) (c : CoreId) : List (Nat × Strand) → State
  | [] => s
  | (n, st) :: t => (s.withdraw c n st).withdrawAll c t

/-- DBGCTL.STOP := 1 (15 R445). -/
def State.debugStop (s : State) (c : CoreId) : State :=
  let k := s.core c
  if k.dbg.stop then s
  else (s.setCore c { k with dbg := { k.dbg with stop := true } }).withdrawAll c k.slots
/-- The strands stand at boundaries: none awaits an answer, departs, brings an access, or stands between two progress points of a
holding instruction (15 R445; 08 R272). -/
def Strand.atBoundary (st : Strand) : Bool :=
  match st.run with
  | .await _ _ | .departing _ _ | .arrived _ => false
  | .stopped _ | .faulted => true
  | _ => !st.midHold
def Core.atBoundary (k : Core) : Bool := k.slots.all (fun e => e.2.atBoundary)
/-- STOPPED is set once the stop holds (15 R445, R447). -/
def State.debugStopped (s : State) (c : CoreId) : State :=
  let k := s.core c
  if k.dbg.stop && !k.dbg.stopped && k.atBoundary then
    (s.setCore c { k with dbg := { k.dbg with stopped := true } }).trace c 0x0B 0 0
  else s
/-- The copies that a stopped core refused are told that it runs again (09 R296). -/
def sendNotices (s : State) (c : CoreId) : List (Nat × Nat) → State
  | [] => s
  | (k, r) :: t => sendNotices (s.send c (coreOfKey k) true none (.resumeNotice r)) c t

/-- DBGCTL.STOP := 0 resumes every part where it stood (15 R445, R447). -/
def State.debugResume (s : State) (c : CoreId) : State :=
  let k := s.core c
  if k.dbg.stop then
    let s := sendNotices s c k.notify
    State.refill 32 ((s.modCore c (fun k =>
      { k with notify := [], dbg := { k.dbg with stop := false, stopped := false } })).trace c 0x0C 0 0) c
  else s

/-- A doubleword of control space takes the written bytes (07 R227, R231, R233, R240; 15 R444). -/
def State.ctlWrite (s : State) (c : CoreId) (off : Nat) (vm mask : Nat) (w : Writer) : State :=
  let k := s.core c
  let v := ctlMerge (s.ctlWord c off) vm mask
  if off = 0x08 then s.setCore c { k with cfg := { k.cfg with partfeat := fld v 20 16 } }
  else if off = 0x10 then s.setCore c { k with cfg := { k.cfg with proxy := ctlTake 0 v (2 ^ 48 - 1) } }
  else if off = 0x18 then s.setCore c { k with cfg := { k.cfg with fwdValid := bitAt v 63, heir := fld v 15 0 } }
  else if off = 0x20 then
    State.unspill 4096 (s.setCore c { k with cfg := { k.cfg with cloaklim := fld v 4 0 } }) c
  else if off = 0x28 then
    s.setCore c { k with cfg := { k.cfg with spillcfg := ctlTake 0 v (2 ^ 30 - 2 ^ 16 + (2 ^ 13 - 1)) } }
  else if off = 0x0A00 then (if bitAt v 0 then s.debugStop c else s.debugResume c)
  else if 0x0A00 ≤ off && off < 0x1000 then s.setCore c { k with dbg := k.dbg.write off v vm mask }
  else if 0x3000 ≤ off && off < 0x3200 then
    (if v = 0 then s.setCore c { k with counters := tblSet k.counters ((off - 0x3000) / 8) 0 } else s)
  else if 0x4000 ≤ off && off < 0x6000 then
    let g := (coreBase c + 0x20000000) / 16 + (off - 0x4000) * 8
    let chg := (span 0 64).filterMap (fun j =>
      if bitAt v j != s.full (16 * (g + j)) then some (g + j, bitAt v j) else none)
    (s.put c [] chg { w with log := false, leaf := 0 }).1
  else if 0x8000 ≤ off && off < 0x10000 then
    let n := (off - 0x8000) / 1024
    s.setCore c (k.frameWrite n (off % 1024 / 8) v)
  else s

/-- A store of n bytes to control space. -/
def State.ctlStore (s : State) (pa n : Nat) (d : Word) (w : Writer) : State :=
  let c := homeOf pa
  let off := offOf pa - 0x30000000
  let x := ctlPlace off n d.toNat
  (s.ctlWrite c (off / 8 * 8) x.1 x.2 w).wake c [(pa, n)]

/-- One access at the home c: control space is written through its registers; else the line's group closes, the access is
made or must wait, and the waiters of what it wrote are served (05 R156; 13 R398). -/
def State.serve (s : State) (c : CoreId) (r : MemReq) (w : Writer) : Option (Answer × State) :=
  match inControl (offOf r.pa) && !isHost r.pa, r.op with
  | true, .store n d _ => some (.plain 0 true, s.ctlStore r.pa n d w)
  | true, .post _ n d => some (.plain 0 true, s.ctlStore r.pa n d w)
  | true, .put _ => some (.plain 0 true, s)
  | _, _ =>
    let s := s.closeLine c (r.pa / 64)
    match s.serveOne c r w with
    | .wait => none
    | .done a wrote s => some (a, s.wake c wrote)

end Sys2Proof.Machine
end

