-- ==== Sys2Proof/Machine/Xlate.lean ====
section
/-! DEFINITION. Translation: leaves, table walks, the three levels of caches, Xlate, reachability and Resolve (00 R10 to R12; 01 R39
to R44; 11 R355 to R364; 16 R454, R455). -/
namespace Sys2Proof.Machine
open Sys2Proof

/-- Result of an access step that may wait or fault. -/
inductive Tr where
  | ok (pa : Nat) (leaf : Word) (s : State)
  | wait (s : State)
  | fault (f : FaultInfo) (s : State)

/-- The Xlate kinds, by the REASON of PERMISSION (06 R187). -/
def kRead : Nat := 1
def kWrite : Nat := 2
def kExec : Nat := 3
def kAtomic : Nat := 4
def kReduce : Nat := 5

/-- Who looks up: core, barrel (for the micro-TLB), context, privilege, and the strand that would wait for a walk; without one the
agent walks in place (11 R364; log 13). -/
structure XCtx where
  core : CoreId
  barrel : Option Nat
  asid : Nat
  priv : Bool
  uid : Option Nat

/-! ### Leaves -/

/-- The cluster of a core (00; 12). -/
def clusterOf (c : CoreId) : Nat := c.w * 4096 + c.x / 4 * 64 + c.y / 4

/-- ISET's stripe in bytes (14 R414). -/
def isetStripe (v : Word) : Nat := 4096 * 2 ^ fld v 31 29

/-- Where a leaf puts a VA (11 R357, R360); none for an offset of a striped page that is not backed. -/
def State.leafPa (s : State) (c : CoreId) (shift : Nat) (leaf iset va : Word) : Option Nat :=
  if shift = 16 then
    if lfHost leaf then some (hostPa (fld leaf 51 48) (fld leaf 47 16 * 65536 + fld va 15 0))
    else some (fld leaf 51 16 * 65536 + fld va 15 0)
  else if shift = 26 then some (fld leaf 51 26 * 2 ^ 26 + fld va 25 0)
  else
    let o := fld va 35 0
    let z := isetStripe iset
    let n := fld iset 47 32
    if n = 0 then none
    else
      let i := o / z
      let lo := fld iset 13 0 * 65536 + fld leaf 31 19 * 65536 + i / n * z + o % z
      if lo ≥ 0x20000000 then none
      else match s.lnCore (s.partOf c) (fld iset 63 48 + i % n) with
        | none => none
        | some h => some (coreBase h + lo)

/-- Xlate's grant (11 R359). -/
def leafPermits (leaf : Word) (kind : Nat) (priv : Bool) : Bool :=
  (priv || !bitAt leaf 6) &&
  (if kind = kRead then bitAt leaf 2
   else if kind = kWrite || kind = kReduce then bitAt leaf 3
   else if kind = kExec then bitAt leaf 4 && bitAt leaf 5
   else bitAt leaf 2 && bitAt leaf 3 && bitAt leaf 7)

/-! ### Walks -/

/-- A walk's end (11 R358, R363). -/
inductive WalkEnd where
  | leaf (v : Word) (shift : Nat) (iset : Word) (s : State)
  | fail (level : Nat) (entry : Word) (s : State)
  | bad (pa : Nat) (s : State)

/-- A table may stand there: on the walker's wafer, in the partition, in DRAM or scratchpad (11 R355, R358). -/
def State.tableAt (s : State) (c : CoreId) (pa : Nat) : Bool :=
  let h := homeOf pa
  h.w = c.w && h.x < 240 && (s.core h).owned && s.partOf h = s.partOf c && (inDram (offOf pa) || inScratch (offOf pa))

/-- The checks on a leaf found at a level (11 R358; 16 R455). -/
def State.leafOk (s : State) (c : CoreId) (level : Nat) (e : Word) : Bool :=
  let home := homeOf (fld e 51 16 * 65536)
  let off := offOf (fld e 51 16 * 65536)
  fld e 63 60 = 0 && fld e 15 14 = 0 &&
  (if lfHost e then level = 1 && !lfSync e && !lfMirror e else true) &&
  (if lfMirror e then level != 3 && lfMidx e != 0 && home.w = c.w else true) &&
  (if level = 1 then lfHost e || inDram off || inScratch off
   else if level = 2 then fld e 25 16 = 0 && inDram off
   else if level = 3 then
     fld e 51 32 = 0 && bitAt ((s.core c).cfg.iset.toList.getD (fld e 18 16) 0) 28
   else false)

/-- The walk from a table on (11 R355 to R358). An entry is read at its home, which is the heir of a retired core (11 R363; 13 R398). -/
def walkFrom : Nat → State → CoreId → Nat → Word → WalkEnd
  | 0, s, _, _, _ => .fail 1 0 s
  | level + 1, s, c, table, va =>
    let pte := table + 8 * (va.toNat / 2 ^ (16 + 10 * level) % 1024)
    let a := s.lands pte
    let s := s.closeLine (homeOf a) (a / 64)
    match s.badGranule a 8 with
    | some _ => .bad pte s
    | none =>
      let e := wd (s.memNat a 8)
      let s := s.correct (homeOf a) a 8
      if !bitAt e 0 then .fail (level + 1) e s
      else if bitAt e 1 then
        if s.leafOk c (level + 1) e then
          .leaf e (16 + 10 * level) ((s.core c).cfg.iset.toList.getD (fld e 18 16) 0) s
        else .fail (level + 1) e s
      else if level = 0 || fld e 63 52 != 0 || fld e 12 2 != 0 || !s.tableAt c (fld e 51 13 * 8192) then
        .fail (level + 1) e s
      else walkFrom level s c (fld e 51 13 * 8192) va

/-- A whole walk for a context (11 R355). -/
def State.walk (s : State) (c : CoreId) (asid : Nat) (va : Word) : WalkEnd :=
  let root := match s.context (s.partOf c) asid with
    | none => 0
    | some x => x.root
  let table := fld root 51 13 * 8192
  if !bitAt root 0 || fld root 63 52 != 0 || fld root 12 1 != 0 || !s.tableAt c table then .fail 4 root s
  else walkFrom 4 s c table va

/-! ### Caches -/

def Tlb.covers (t : Tlb) (vmid asid : Nat) (va : Word) : Bool :=
  t.vmid = vmid && t.asid = asid && t.vpn = fld va 55 0 / 2 ^ t.shift
def tlbFind (l : List Tlb) (vmid asid : Nat) (va : Word) : Option Tlb := l.find? (fun t => t.covers vmid asid va)
/-- A fill: the oldest entry leaves a full cache (11 R361: replacement is not architectural; log 13). -/
def tlbFill (l : List Tlb) (cap : Nat) (t : Tlb) : List Tlb :=
  let l := l.filter (fun x => x != t)
  (if l.length ≥ cap then l.drop 1 else l) ++ [t]

def State.clusterTlb (s : State) (c : CoreId) : List Tlb := tblGet [] s.clusters (clusterOf c)
def State.fillCluster (s : State) (c : CoreId) (t : Tlb) : State :=
  { s with clusters := tblSet s.clusters (clusterOf c) (tlbFill (s.clusterTlb c) 8192 t) }
def State.fillCore (s : State) (c : CoreId) (t : Tlb) : State :=
  s.modCore c (fun k => { k with coreTlb := tlbFill k.coreTlb 256 t })
def State.fillMicro (s : State) (c : CoreId) (b : Option Nat) (t : Tlb) : State :=
  match b with
  | none => s
  | some i => s.modCore c (fun k => { k with micTlb := k.micTlb.setIfInBounds i (tlbFill (k.micTlb.toList.getD i []) 16 t) })

/-- The first cache level that holds the translation, filling the levels that missed (11 R361). -/
def State.lookup (s : State) (x : XCtx) (vmid : Nat) (va : Word) : Option (Tlb × State) :=
  let k := s.core x.core
  let mic := match x.barrel with
    | none => none
    | some b => tlbFind (k.micTlb.toList.getD b []) vmid x.asid va
  match mic with
  | some t => some (t, s)
  | none =>
    match tlbFind k.coreTlb vmid x.asid va with
    | some t => some (t, s.fillMicro x.core x.barrel t)
    | none =>
      match tlbFind (s.clusterTlb x.core) vmid x.asid va with
      | some t => some (t, (s.fillCore x.core t).fillMicro x.core x.barrel t)
      | none => none

/-- The misses a lookup counts (15 R448). -/
def State.countMisses (s : State) (x : XCtx) (vmid : Nat) (va : Word) : State :=
  let k := s.core x.core
  let mic := match x.barrel with
    | none => true
    | some b => (tlbFind (k.micTlb.toList.getD b []) vmid x.asid va).isSome
  if mic then s
  else
    let s := s.perf x.core 0x06 1
    if (tlbFind k.coreTlb vmid x.asid va).isSome then s
    else
      let s := s.perf x.core 0x07 1
      if (tlbFind (s.clusterTlb x.core) vmid x.asid va).isSome then s else s.perf x.core 0x08 1

/-- A lookup that matches an invalidation under way waits (11 R370 step 3). -/
def InvOp.matches (o : InvOp) (vmid asid base n : Nat) : Bool :=
  o.vmid = vmid && (o.all || o.asid = asid) &&
  (o.kind = 1 || (o.len != 0 && ((base + 2 ^ 56 - o.base) % 2 ^ 56 < o.len || (o.base + 2 ^ 56 - base) % 2 ^ 56 < n)))

/-- An access made in a page of 2^shift bytes under a translation in range is not complete. -/
def InvOp.holdsVa (o : InvOp) (vmid asid : Nat) (va : Word) (shift : Nat) : Bool :=
  o.matches vmid asid (fld va 55 shift * 2 ^ shift) (2 ^ shift)
def InvOp.holdsReq (o : InvOp) (vmid asid : Nat) (r : MemReq) : Bool := r.leaf != 0 && o.holdsVa vmid asid r.va r.shift
def InvOp.holdsStrand (o : InvOp) (vmid : Nat) (st : Strand) : Bool :=
  st.posts.any (fun p => o.holdsVa vmid st.asid p.va p.shift) || st.lds.any (fun l => o.holdsVa vmid st.asid l.va l.shift) ||
  (match st.run with
    | .await _ r => o.holdsReq vmid st.asid r
    | .arrived r => o.holdsReq vmid st.asid r
    | .departing _ (some r) => o.holdsReq vmid st.asid r
    | _ => false)
def InvOp.holdsCoat (o : InvOp) (vmid : Nat) (x : Coat) : Bool :=
  o.holdsStrand vmid x.st || (match x.op with | none => false | some r => o.holdsReq vmid x.st.asid r)
/-- A core's strands and units have completed every event under a dropped translation (11 R370). -/
def Core.invClear (k : Core) (o : InvOp) : Bool :=
  (k.strandsOf (fun st => o.holdsStrand k.vmid st)).isEmpty &&
  (k.coats ++ k.departures.map (fun d => d.2.coat)).all (fun x => !o.holdsCoat k.vmid x) &&
  k.records.all (fun r => !(o.vmid = k.vmid && (o.all || o.asid = r.2.asid) &&
    (match r.2.job with | .copy j => j.sent != j.landed | .matrix _ => false)))
/-- A cluster is clear: once it was found so, later events are under new translations (11 R370). -/
def State.clusterClear (s : State) (cl : Nat) (o : InvOp) : Bool :=
  o.kind = 2 || o.clear.contains cl ||
  (s.cores.all (fun e => clusterOf (coreOfKey e.1) != cl || e.2.invClear o) &&
   s.net.all (fun m => match m.body with
     | .coat x => !(clusterOf m.src = cl && o.holdsCoat (s.core m.src).vmid x)
     | .bounced x => !(clusterOf m.dst = cl && o.holdsCoat (s.core m.dst).vmid x)
     | _ => true))
/-- What is found clear stays so. -/
def State.latch (s : State) (cl : Nat) (o : InvOp) : InvOp :=
  if !o.clear.contains cl && s.clusterClear cl o then { o with clear := setAdd o.clear cl } else o
def State.clustersOf (s : State) (p : Nat) : List Nat :=
  s.cores.foldl (fun l e => if e.2.owned && s.partOf (coreOfKey e.1) = p then setAdd l (clusterOf (coreOfKey e.1)) else l) []
def State.latchAll (s : State) (p : Nat) (o : InvOp) : InvOp := (s.clustersOf p).foldl (fun o cl => s.latch cl o) o
/-- Every cluster of a partition is clear. -/
def State.allClear (s : State) (p : Nat) (o : InvOp) : Bool := (s.clustersOf p).all (fun cl => s.clusterClear cl o)

/-- Whether a lookup must wait: an operation under way matches it and its cluster is not clear yet (11 R370 step 3). -/
def State.invGate (s : State) (c : CoreId) (vmid asid : Nat) (va : Word) (kind : Nat) : Bool × State :=
  match s.part (s.partOf c) with
  | none => (false, s)
  | some x =>
    let hit : InvOp → Bool := fun o => o.delivered.isSome && (o.kind != 2 || kind = kExec) && o.matches vmid asid (fld va 55 0) 1
    if !x.invq.any hit then (false, s)
    else
      let q := x.invq.map (fun o => if hit o then s.latch (clusterOf c) o else o)
      (q.any (fun o => hit o && !s.clusterClear (clusterOf c) o), s.setPart (s.partOf c) { x with invq := q })

/-- The permission check and the PA of a translation in hand (11 R359, R360; 16 R455). -/
def State.grant (s : State) (x : XCtx) (t : Tlb) (va : Word) (kind : Nat) : Tr :=
  match s.leafPa x.core t.shift t.leaf t.iset va with
  | none => .fault (fTranslate 3 va t.leaf) s
  | some pa =>
    if !leafPermits t.leaf kind x.priv then .fault (fPermission kind va t.leaf) s
    else if kind = kExec && (homeOf pa).w != x.core.w && !isHost pa then .fault (fPermission kind va t.leaf) s
    else .ok pa t.leaf s

def pageOf (va : Word) : Nat := fld va 55 16
/-- A walk is put in progress, queued, or refused (11 R363). -/
def State.startWalk (s : State) (x : XCtx) (uid : Option Nat) (vmid : Nat) (va : Word) : State :=
  let cl := clusterOf x.core
  let mine := s.walks.filter (fun w => w.cluster = cl)
  if mine.any (fun w => w.vmid = vmid && w.asid = x.asid && pageOf w.va = pageOf va) then s
  else
    let busy := mine.filter (fun w => !w.queued && w.retry.isNone)
    let q := mine.filter (fun w => w.queued)
    let w : Walk := { cluster := cl, core := x.core, vmid := vmid, asid := x.asid, va := va, barrel := x.barrel, uid := uid,
                      queued := busy.length ≥ 32 && q.length < 64, marked := false,
                      retry := if busy.length ≥ 32 && q.length ≥ 64 then some (s.cycle + 64) else none }
    ({ s with walks := s.walks ++ [w] }).perf x.core 0x09 1

/-- The fault a failed walk raises at its access (00 R10; 11 R358, R363). -/
def walkFault (f : WalkFail) (va : Word) : FaultInfo :=
  match f.bad with
  | some pa => fWalker pa
  | none => fTranslate f.level va f.entry

/-- Xlate (00 R10; 11 R361 to R364). -/
def State.xlate (s : State) (x : XCtx) (va : Word) (kind : Nat) : Tr :=
  if !canonical va then .fault (fTranslate 0 va 0) s
  else
    let vmid := (s.core x.core).vmid
    let g := s.invGate x.core vmid x.asid va kind
    let s := g.2
    if g.1 then .wait s
    else match s.lookup x vmid va with
      | some (t, s') => s'.grant x t va kind
      | none =>
        match x.uid with
        | some u =>
          match s.walkFails.find? (fun f => f.uid = u && pageOf f.va = pageOf va) with
          | some f => .fault (walkFault f va) { s with walkFails := s.walkFails.filter (fun g => g != f) }
          | none =>
            if s.walks.any (fun w => w.cluster = clusterOf x.core && w.vmid = vmid && w.asid = x.asid && pageOf w.va = pageOf va)
            then .wait s
            else .wait ((s.countMisses x vmid va).startWalk x (some u) vmid va)
        | none =>
          match (s.countMisses x vmid va).walk x.core x.asid va with
          | .bad pa s => .fault (fWalker pa) s
          | .fail level e s => .fault (fTranslate level va e) s
          | .leaf e shift iset s =>
            let t : Tlb := { vmid := vmid, asid := x.asid, shift := shift, vpn := fld va 55 0 / 2 ^ shift, leaf := e, iset := iset,
                             mirrors := if lfMirror e then s.mirrorEntry x.core (lfMidx e) else none }
            ((s.fillCluster x.core t).fillCore x.core t).grant x t va kind

/-! ### Resolve -/

/-- A core is live: boot test passed it and its groom has not lost it (12 R376, R392). -/
def Core.live (k : Core) : Bool := k.cfg.cls = .live

/-- Reachable (01 R40; 16 R454). -/
def State.reachable (s : State) (c : CoreId) (priv : Bool) (pa : Nat) : Bool :=
  let t := homeOf pa
  if t.w != c.w then bitAt (s.core c).cfg.fabcfg 14 && s.pkg.wafers.contains t.w && t.x < 240
  else
    let k := s.core t
    t.x < 240 && (k.live || k.cfg.fwdValid) && k.owned && s.partOf t = s.partOf c && (priv || !k.cfg.groom)

/-- No path of links reaches a wafer from another (16 R458; log 29). -/
def State.waferDown (s : State) (a b : Nat) : Bool :=
  a != b && (s.pkg.dezalDown.contains a || s.pkg.dezalDown.contains b)
/-- The far router's refusal of an arrival from another wafer (16 R454). -/
def State.farRefuses (s : State) (src : CoreId) (pa : Nat) : Bool :=
  let h := homeOf pa
  let k := s.core h
  h.w != src.w && !(h.x < 240 && (k.live || k.cfg.fwdValid) && k.owned && !k.cfg.groom && bitAt k.cfg.fabexp src.w)

/-- PRIVILEGE's INFO for a member (06 R187). -/
def memberInfo (page major fn : Nat) : Word := wd (page * 65536 + major * 256 + fn)

/-- What Resolve checks once the PA is known (01 R42). -/
def State.checkPa (s : State) (c : CoreId) (priv : Bool) (form : Form) (info : Word) (pa : Nat) (leaf : Word) (s' : State) :
    Tr :=
  if isHost pa then .ok pa leaf s'
  else if !s.reachable c priv pa then .fault (fAccess (wd pa) 0) s'
  else
    let lo := offOf pa
    if inControl lo then (if priv then .ok pa leaf s' else .fault (fPrivilege (wd pa) info) s')
    else if inDram lo then
      (if !priv && (form = .loc || form = .rel || form = .ln) then .fault (fPrivilege (wd pa) info) s' else .ok pa leaf s')
    else if inScratch lo then .ok pa leaf s'
    else .fault (fAccess (wd pa) 0) s'

/-- The signed byte of a REL base (01 R42). -/
def relByte (v : Nat) : Int := if v ≥ 128 then (v : Int) - 256 else (v : Int)

/-- Resolve (00 R12; 01 R42, R43). -/
def State.resolve (s : State) (x : XCtx) (st : Strand) (form : Form) (base : Word) (off : Int) (kind : Nat) (info : Word) : Tr :=
  let c := x.core
  let bound := fBound form base (Word.ofExact off)
  let fin : Nat → Tr := fun pa => s.checkPa c x.priv form info pa 0 s
  match form with
  | .va | .stay | .go =>
    match s.xlate x (Word.ofExact (base.toNat + off)) kind with
    | .ok pa leaf s' => s'.checkPa c x.priv form info pa leaf s'
    | .wait s' => .wait s'
    | .fault f s' => .fault f s'
  | .loc =>
    let a : Int := base.toNat + off
    if a < 0 || a ≥ 2 ^ 30 then .fault bound s else fin (coreBase c + a.toNat)
  | .rel =>
    let o : Int := fld base 29 0 + off
    let tx : Int := c.x + relByte (fld base 45 38)
    let ty : Int := c.y + relByte (fld base 37 30)
    if fld base 63 46 != 0 || o < 0 || o ≥ 2 ^ 30 then .fault bound s
    else if tx < fld st.gang 23 16 || tx > fld st.gang 23 16 + fld st.gang 11 8 ||
        ty < fld st.gang 31 24 || ty > fld st.gang 31 24 + fld st.gang 15 12 then .fault bound s
    else fin (coreBase { w := c.w, x := tx.toNat % 256, y := ty.toNat % 256 } + o.toNat)
  | .ln =>
    let o : Int := fld base 29 0 + off
    if fld base 63 46 != 0 || o < 0 || o ≥ 2 ^ 30 then .fault bound s
    else match s.lnCore (s.partOf c) (fld base 45 30) with
      | none => .fault bound s
      | some h => fin (coreBase h + o.toNat)
  | .phys =>
    let a : Int := base.toNat + off
    if !x.priv then .fault (fPrivilege (Word.ofExact a) info) s
    else if a < 0 || a ≥ 2 ^ 52 then .fault bound s
    else fin a.toNat

/-- The page size of a translation just made, as log2; 16 where none is held. -/
def State.shiftAt (s : State) (x : XCtx) (va : Word) : Nat :=
  let k := s.core x.core
  let vmid := k.vmid
  let mic := match x.barrel with | none => [] | some b => k.micTlb.toList.getD b []
  match tlbFind (mic ++ k.coreTlb ++ s.clusterTlb x.core) vmid x.asid va with
  | none => 16
  | some t => t.shift

/-! ### Copies of a MIRROR page (11 R366; 13 R400, R401) -/

/-- The mirror list that the core's cluster keeps for a leaf, from the walk that read it (11 R366). -/
def State.mirrorsOf (s : State) (c : CoreId) (leaf : Word) : Option (Nat × Nat × List (Nat × Nat)) :=
  let k := s.core c
  match (k.coreTlb ++ k.micTlb.toList.flatten ++ s.clusterTlb c).find? (fun t => t.leaf = leaf && t.mirrors.isSome) with
  | none => s.mirrorEntry c (lfMidx leaf)
  | some t => t.mirrors
/-- Hops of the mesh between two cores. -/
def hops (a b : CoreId) : Nat := (max a.x b.x - min a.x b.x) + (max a.y b.y - min a.y b.y)
/-- The PA to read for a PA of a MIRROR page: at whichever of the home and the mirrors is the fewest hops away; a tie goes to the home,
then to the lowest mirror. -/
def State.nearPa (s : State) (c : CoreId) (leaf : Word) (pa : Nat) : Nat :=
  if isHost pa || !lfMirror leaf then pa
  else match s.mirrorsOf c leaf with
    | none => pa
    | some (hp, size, ms) =>
      if hp != leafPage leaf size then pa
      else
        (ms.foldl (fun best m =>
          match s.lnCore (s.partOf c) m.1 with
          | none => best
          | some d => if hops c d < hops c best.1 then (d, coreBase d + m.2 + pa % mirrorPage size) else best) (homeOf pa, pa)).2

/-- The lookup context of a strand's scalar access. -/
def scalarCtx (c : CoreId) (n : Nat) (st : Strand) : XCtx :=
  { core := c, barrel := some (n / 16), asid := st.asid, priv := st.stat.priv, uid := some st.uid }
/-- The lookup context of a vector access or of a block that a strand moves: it goes past the micro-TLB, and the instruction holds while
a walk is under way (11 R361, R364). -/
def placeCtx (c : CoreId) (st : Strand) : XCtx :=
  { core := c, barrel := none, asid := st.asid, priv := st.stat.priv, uid := some st.uid }

end Sys2Proof.Machine
end

