-- ==== Sys2Proof/Machine/RingOps.lean ====
section
/-! DEFINITION. Rings as events of the ring unit: claim, publish, pop, credits, and the words of a register-mapped queue
(09 R276 to R281, R288, R293, R294). -/
namespace Sys2Proof.Machine
open Sys2Proof

def Ring.entries (r : Ring) : Nat := 2 ^ r.logent
def Ring.size (r : Ring) : Nat := 16 * (r.sizem1 + 1)
/-- EntryAddr (09 R277), a local offset. -/
def Ring.addr (r : Ring) (cnt : Nat) : Nat := 0x20000000 + r.base + cnt % r.entries * r.size
/-- P: published entries. -/
def Ring.avail (r : Ring) : Nat := (r.pub + 65536 - r.head) % 65536
/-- Claimed slots, ready or not, from HEAD. -/
def Ring.used (r : Ring) : Nat := (r.claim + 65536 - r.head) % 65536
/-- F: free entries. -/
def Ring.free (r : Ring) : Nat := r.entries - r.used - r.granted
def Ring.isFed (r : Ring) : Bool := r.mode = 2
def Ring.isDeque (r : Ring) : Bool := r.mode = 1
/-- Claimed slots not yet ready, oldest first, as slot numbers. -/
def Ring.unready (r : Ring) : List Nat :=
  ((span 0 ((r.claim + 65536 - r.pub) % 65536)).map (fun i => (r.pub + i) % 65536 % r.entries)).filter
    (fun x => !r.ready.contains x)

/-- PUB passes every ready slot at its position (09 R277); the counters passed are returned. -/
def Ring.settle : Nat → Ring → List Nat → Ring × List Nat
  | 0, r, acc => (r, acc)
  | f + 1, r, acc =>
    let slot := r.pub % r.entries
    if r.pub != r.claim && r.ready.contains slot then
      Ring.settle f { r with pub := (r.pub + 1) % 65536, ready := r.ready.filter (· != slot) } (acc ++ [r.pub])
    else (r, acc)

/-- The granules of one entry. -/
def Ring.granules (r : Ring) (c : CoreId) (cnt : Nat) : List Nat :=
  span ((coreBase c + r.addr cnt) / 16) (r.size / 16)

/-- The entries that a record in WAITIN waits for are there (09 R296). -/
def Core.inputsReady (k : Core) (r : Record) : Bool :=
  let has : Nat → Bool := fun i => match List.lookup i k.rings with
    | none => false
    | some q => q.avail ≥ 1
  match r.job with
  | .copy _ => true
  | .matrix m =>
    let w := m.words.toList.getD 0 0
    if fld w 62 61 = 1 then fld (m.words.toList.getD 10 0) 31 0 = 0 || has (fld w 29 26) else has (fld w 29 26) && has (fld w 25 22)
/-- A record whose inputs are there leaves WAITIN for good (09 R296). -/
def Core.latch (k : Core) : Core :=
  { k with records := k.records.map (fun x => match x.2.state with
    | .waitin => if k.inputsReady x.2 then (x.1, { x.2 with state := .eligible }) else x
    | _ => x) }

def State.ring (s : State) (c : CoreId) (i : Nat) : Option Ring := List.lookup i (s.core c).rings
def State.setRing (s : State) (c : CoreId) (i : Nat) (r : Ring) : State :=
  s.modCore c (fun k => ({ k with rings := tblSet k.rings i r } : Core).latch)

/-- Full-empty changes of ring entries in FED mode (09 R279), one event. -/
def State.fedMark (s : State) (c : CoreId) (r : Ring) (cnts : List Nat) (full : Bool) (w : Writer) : State :=
  if r.isFed && !cnts.isEmpty then (s.put c [] ((cnts.map (r.granules c)).flatten.map (fun g => (g, full))) w).1 else s

/-- The slots become ready and PUB advances (09 R277, R279). -/
def State.ringReady (s : State) (c : CoreId) (i : Nat) (r : Ring) (slots : List Nat) (w : Writer) : State :=
  let x := Ring.settle r.entries { r with ready := slots.foldl setAdd r.ready } []
  (s.setRing c i x.1).fedMark c r x.2 true w

/-- The requester's core learns of its credits (09 R288); the grant carries the tag of the request, which the requester's entry keeps. -/
def State.sendGrant (s : State) (c : CoreId) (ln cidx g sizem1 : Nat) (refused : Bool) : State :=
  match s.lnCore (s.partOf c) ln with
  | none => s
  | some d =>
    let tag := match List.lookup cidx (s.core d).credits with | none => none | some e => e.tag
    s.send c d true tag (.creditGrant cidx g sizem1 refused)

/-- Credits go to the oldest waiter while there is room (09 R288). -/
def State.grantWaiters : Nat → State → CoreId → Nat → State
  | 0, s, _, _ => s
  | f + 1, s, c, i =>
    match s.ring c i with
    | none => s
    | some r =>
      match r.waiters with
      | [] => s
      | (ln, cidx) :: t =>
        let g := min r.cbatch r.free
        if g = 0 then s
        else State.grantWaiters f
          ((s.setRing c i { r with granted := r.granted + g, waiters := t }).sendGrant c ln cidx g r.sizem1 false) c i

/-- n entries leave at HEAD (09 R282, R288). -/
def State.ringPop (s : State) (c : CoreId) (i n : Nat) (w : Writer) : State :=
  match s.ring c i with
  | none => s
  | some r =>
    let cnts := (span 0 n).map (fun j => (r.head + j) % 65536)
    let s := (s.setRing c i { r with head := (r.head + n) % 65536 }).fedMark c r cnts false w
    State.grantWaiters 8 s c i

/-- The bytes of an entry are written and its slot becomes ready: an append or an engine's publication (09 R281, R289). -/
def State.ringAppend (s : State) (c : CoreId) (i : Nat) (r : Ring) (data : List Byte) (w : Writer) : State :=
  let slot := r.claim % r.entries
  let s := (s.put c [(coreBase c + r.addr r.claim, data)] [] w).1
  s.ringReady c i { r with claim := (r.claim + 1) % 65536 } [slot] w

/-! ### Register-mapped queues (09 R293, R294) -/

/-- g12 to g15 of a bound strand are ports. -/
def Strand.isPort (st : Strand) (r : Reg) : Bool := st.stat.qbound && r.val ≥ 12

/-- Doublewords the IN ring has for this strand; none where reads return 0. -/
def State.portHas (s : State) (c : CoreId) (st : Strand) (pops : Nat) : Bool :=
  match st.qb with
  | none => true
  | some q =>
    if !q.inEn then true
    else match s.ring c q.inRing with
      | none => true
      | some r => r.avail * (r.size / 8) ≥ r.cword + pops
/-- The OUT ring can take one doubleword. -/
def State.portRoom (s : State) (c : CoreId) (st : Strand) : Bool :=
  match st.qb with
  | none => true
  | some q =>
    if !q.outEn then true
    else match s.ring c q.outRing with
      | none => true
      | some r => r.pword > 0 || r.free ≥ 1

/-- The pops or the push of an instruction would end an entry, which is a release (09 R294; log 24). -/
def State.portRelease (s : State) (c : CoreId) (st : Strand) (pops : Nat) (push : Bool) : Bool :=
  match st.qb with
  | none => false
  | some q =>
    (q.inEn && pops != 0 && (match s.ring c q.inRing with
      | none => false
      | some r => r.cword + pops ≥ r.size / 8)) ||
    (q.outEn && push && (match s.ring c q.outRing with
      | none => false
      | some r => r.pword + 1 ≥ r.size / 8))

/-- One pop of the IN ring (09 R294). -/
def State.portPop (s : State) (c : CoreId) (n : Nat) (st : Strand) : Word × State :=
  match st.qb with
  | none => (0, s)
  | some q =>
    if !q.inEn then (0, s)
    else match s.ring c q.inRing with
      | none => (0, s)
      | some r =>
        let a := coreBase c + r.addr r.head + 8 * r.cword
        let s := s.closeLine c (a / 64)
        let v := wd (s.memNat a 8)
        if r.cword + 1 = r.size / 8 then
          (v, (s.setRing c q.inRing { r with cword := 0 }).ringPop c q.inRing 1 (strandWriter c n st 0))
        else (v, s.setRing c q.inRing { r with cword := r.cword + 1 })

/-- One push to the OUT ring (09 R294; log 16). -/
def State.portPush (s : State) (c : CoreId) (n : Nat) (st : Strand) (v : Word) : State :=
  match st.qb with
  | none => s
  | some q =>
    if !q.outEn then s
    else match s.ring c q.outRing with
      | none => s
      | some r =>
        let r := if r.pword = 0 then { r with claim := (r.claim + 1) % 65536 } else r
        let w := strandWriter c n st 0
        let s := (s.put c [(coreBase c + r.addr r.pub + 8 * r.pword, leBytes 8 v.toNat)] [] w).1
        if r.pword + 1 = r.size / 8 then s.ringReady c q.outRing { r with pword := 0 } [r.pub % r.entries] w
        else s.setRing c q.outRing { r with pword := r.pword + 1 }

/-- The pops of a list of sources, in order; a register gives its value (09 R294). -/
def State.popAll (s : State) (c : CoreId) (n : Nat) (st : Strand) : List Reg → List Word × State
  | [] => ([], s)
  | r :: t =>
    if st.isPort r then
      let x := s.portPop c n st
      let y := x.2.popAll c n st t
      (x.1 :: y.1, y.2)
    else
      let y := s.popAll c n st t
      (st.reg r :: y.1, y.2)

/-- QFREE (09 R293): the output entry is filled with zeros and published, the input entry popped, the binding cleared. -/
def State.queueFree (s : State) (c : CoreId) (n : Nat) (st : Strand) : Strand × State :=
  match st.qb with
  | none => (st, s)
  | some q =>
    let w := strandWriter c n st 0
    let s := if !q.outEn then s else match s.ring c q.outRing with
      | none => s
      | some r =>
        let s := if r.pword = 0 then s else
          let a := coreBase c + r.addr r.pub + 8 * r.pword
          let s := (s.put c [(a, List.replicate (r.size - 8 * r.pword) (0 : Byte))] [] w).1
          s.ringReady c q.outRing { r with pword := 0 } [r.pub % r.entries] w
        match s.ring c q.outRing with
        | none => s
        | some r => s.setRing c q.outRing { r with qout := false }
    let s := if !q.inEn then s else match s.ring c q.inRing with
      | none => s
      | some r =>
        let s := if r.cword = 0 then s else (s.setRing c q.inRing { r with cword := 0 }).ringPop c q.inRing 1 w
        match s.ring c q.inRing with
        | none => s
        | some r => s.setRing c q.inRing { r with qin := false }
    ({ st with qb := none, stat := { st.stat with qbound := false } }, s)

end Sys2Proof.Machine
end

