-- ==== Sys2Proof/Machine/Operands.lean ====
section
/-! DEFINITION. Issue: the guard, the privilege check, pending registers, queue ports, and writing a result (01 R32, R33; 02 R56;
04 R111; 05 R154; 09 R294). -/
namespace Sys2Proof.Machine
open Sys2Proof

/-! ### Completion of earlier events -/

/-- A mirror update of the strand is not yet acknowledged (05 R151). -/
def State.mirrorsOpen (s : State) (uid : Nat) : Bool :=
  s.net.any (fun m => match m.body with
    | .mirrorUpdate _ _ _ l => l.contains uid
    | .mirrorAck l => l.contains uid
    | _ => false)
/-- Every earlier event of the strand is complete: at PART scope, or with the far side's acknowledgements (05 R151, R177; 13 R407;
16 R457). -/
def State.quiet (s : State) (c : CoreId) (st : Strand) (far : Bool) : Bool :=
  st.lds.isEmpty && st.posts.all (fun p => !far && (isHost p.pa || (homeOf p.pa).w != c.w)) && !s.mirrorsOpen st.uid


/-! ### Waits with a limit (00 R16; 05 R170, R171; 06 R191) -/

/-- The core cycle at which a limit ends; all ones never expires (00 R16; 05 R170; log 17). -/
def State.limitAt (s : State) (st : Strand) (limit : Word) : Option Nat :=
  if limit = wd (2 ^ 64 - 1) then none
  else match st.deadline with
    | some d => some d
    | none => some (s.cycle + limit.toNat)

/-- The limit has run out. -/
def State.isDue (s : State) (d : Option Nat) : Bool :=
  match d with
  | none => false
  | some d => d ≤ s.cycle

/-! ### Issue -/

/-- The outcome type of every meaning. -/
abbrev Out := Host.Outcome State Fault Refusal

/-- The instruction is complete: the strand is ready and continues after its chain (05 R163). -/
def Strand.finish (st : Strand) : Strand :=
  Strand.advance { st with run := .ready, deadline := none, nest := none, rbuf := [], bulk := none }
/-- The strand tries again at its next turn (00 R16). -/
def State.block (s : State) (c : CoreId) (n : Nat) (st : Strand) (cls : WaitClass) : State :=
  s.putStrand c n { st with run := .blocked cls }
/-- A release: the queues that hold the strand's reductions drain, and `k` follows once every earlier event is complete. -/
def State.released (s : State) (c : CoreId) (n : Nat) (st : Strand) (far : Bool) (k : State → State) : State :=
  let s := s.drainQueue c st
  if s.quiet c st far then k s else s.block c n st .mem

/-- An access record that only names what is awaited. -/
def waitFor (k : Cont) : MemReq :=
  { pa := 0, va := 0, op := .load 8 .none, cont := k, aq := false, rl := false, leaf := 0, limit := none }

/-- HERE is the core a handle names (05 R174). -/
def State.handleHere (s : State) (c : CoreId) (h : Word) : Bool := hLn h = (s.core c).cfg.ln
/-- What HERE's board knows at once: handles of HERE, of no core of the partition, and of kind 3 (05 R173). -/
def State.handleLocal (s : State) (c : CoreId) (h : Word) : Bool :=
  s.handleHere c h || hKind h = 3 || (s.lnCore (s.partOf c) (hLn h)).isNone

/-- The HANDLE bits of sources whose operation HERE's board reports ended are cleared (01 R33). -/
def State.clearEnded (s : State) (c : CoreId) (st : Strand) : List Reg → Strand
  | [] => st
  | r :: t =>
    let st := s.clearEnded c st t
    match st.pending r with
    | .handle =>
      let h := st.reg r
      if s.handleLocal c h && isEnded (s.boardState (s.partOf c) h).1 then st.setPend r .clear else st
    | _ => st

/-- A query to the board of another core; the strand waits for the reply (01 R33; 05 R174). -/
def State.queryBoard (s : State) (c : CoreId) (n : Nat) (st : Strand) (h : Word) (k : Cont) : State :=
  match s.lnCore (s.partOf c) (hLn h) with
  | none => s
  | some d =>
    (s.putStrand c n { st with run := .await .msg (waitFor k) }).send c d false (s.tagOf c st.lslot)
      (.boardQuery ⟨c, n, st.uid⟩ h k)

def Strand.isLoad (st : Strand) (r : Reg) : Bool := !st.isPort r && (match st.pending r with | .load => true | _ => false)
def Strand.isHandle (st : Strand) (r : Reg) : Bool := !st.isPort r && (st.pending r).isHandle

/-- The registers are final and the ports can proceed: the source values, with the pops as a change to make when the
instruction proceeds; or the state in which the strand waits (01 R33; 05 R154; 09 R294). -/
inductive Gate where
  | go (st : Strand) (vals : List Word) (commit : State → State)
  | stop (s : State)

/-- The gate of an instruction that reads `srcs`, waits on HANDLE for those of `hard`, and writes `dst`. -/
def State.gate (s : State) (c : CoreId) (n : Nat) (st : Strand) (srcs hard : List Reg) (dst : Option Reg) : Gate :=
  let dl := match dst with
    | none => []
    | some d => [d]
  if (srcs ++ dl).any st.isLoad then .stop (s.block c n st .mem)
  else
    let st := if hard.any st.isHandle then s.clearEnded c st hard else st
    match hard.find? st.isHandle with
    | some r =>
      if s.handleLocal c (st.reg r) then .stop (s.block c n st .msg)
      else .stop (s.queryBoard c n st (st.reg r) (.source r))
    | none =>
      if st.stat.qbound then
        let pops := (srcs.filter st.isPort).length
        let rel := s.portRelease c st pops (dl.any st.isPort)
        let s := if rel then s.drainQueue c st else s
        if rel && !s.quiet c st false then .stop (s.block c n st .mem)
        else if (pops = 0 || s.portHas c st pops) && (!dl.any st.isPort || s.portRoom c st) then
          .go st (s.popAll c n st srcs).1 (fun s => (s.popAll c n st srcs).2)
        else .stop (s.block c n st .msg)
      else .go st (srcs.map st.reg) (fun s => s)

/-- What an instruction does once it issues: core, slot, strand, source values, the pops to make, state. -/
abbrev Body' := CoreId → Nat → Strand → List Word → (State → State) → State → State

/-- Issue for the current strand (02 R56; 04 R111): a false guard has no effect; then the privilege check, the pending
registers and the ports; then the effect. `priv` is PRIVILEGE's INFO for a privileged member. Nothing issues where no strand
is current (log 2). -/
def State.issue (s : State) (g : Guard) (priv : Option Word) (srcs hard : List Reg) (dst : Option Reg) (k : Body') : State :=
  match s.curStrand with
  | none => s
  | some (c, n, st) =>
    if !guardHolds st g then s.putStrand c n st.finish
    else match priv, st.stat.priv with
      | some info, false => s.takeFault c n st (fPrivilege 0 info)
      | _, _ =>
        match s.gate c n st srcs hard dst with
        | .stop s => s
        | .go st vals commit => k c n st vals commit s

/-- A result is written and the instruction is complete; a port takes it as a push (09 R294). -/
def State.writeBack (s : State) (c : CoreId) (n : Nat) (st : Strand) (dst : Option Reg) (v : Word) : State :=
  match dst with
  | none => s.putStrand c n st.finish
  | some d =>
    if st.isPort d then (s.portPush c n st v).putStrand c n st.finish
    else s.putStrand c n (st.setG d v).finish

/-- The same without a change to the general registers. -/
def State.complete (s : State) (c : CoreId) (n : Nat) (st : Strand) : State := s.putStrand c n st.finish

/-- A limited wait ends unsatisfied (05 R171; 06 R191). -/
def State.expire (s : State) (c : CoreId) (n : Nat) (st : Strand) (info : Vector Word 4) (commit : State → State) : State :=
  if st.stat.wtrap then
    s.takeTrap c n { st with run := .ready, deadline := none, rbuf := [] } { kind := 2, pc := st.pc, info := info }
  else (commit s).complete c n (st.setP3 false)
/-- A WAIT* whose limit ended, with the last value (05 R171; 06 R191). -/
def State.waitExpired (s : State) (c : CoreId) (n : Nat) (st : Strand) (r : MemReq) (last : Word) : State :=
  match r.cont with
  | .wait mem v => s.expire c n st #v[r.va, v, last, mem] (fun s => s)
  | _ => s.block c n st .mem

/-- What a register instruction does: a fault, or a new strand, a value for its destination, flags, and NaR results. -/
inductive RegEff where
  | fault (f : FaultInfo)
  | done (st : Strand) (v : Option Word) (fl : Flags) (nars : Nat)

/-- An instruction that works on registers alone (04 R110, R111, R114). -/
def State.regOp (s : State) (g : Guard) (srcs : List Reg) (dst : Option Reg) (k : Strand → List Word → RegEff) : State :=
  s.issue g none srcs srcs dst (fun c n st vals commit s =>
    match k st vals with
    | .fault f => s.takeFault c n st f
    | .done st v fl nars =>
      let s := (commit s).fpEvents c st.lslot fl nars
      let st := st.raise fl
      match v with
      | none => s.complete c n st
      | some v => s.writeBack c n st dst v)

/-- The value form: no flag, no other change. -/
def RegEff.value (st : Strand) (v : Word) : RegEff := .done st (some v) Flags.none 0

def v0 (l : List Word) : Word := l.getD 0 0
def v1 (l : List Word) : Word := l.getD 1 0
def v2 (l : List Word) : Word := l.getD 2 0

end Sys2Proof.Machine
end

