-- ==== Sys2Proof/Machine/Access.lean ====
section
/-! DEFINITION. Memory accesses of a strand: the sequence of 05 R143, the migration decision with its predictor and detector
(05 R144; 07 R228, R229), posted operations, requests and what their answers do. -/
namespace Sys2Proof.Machine
open Sys2Proof

def Form.isVa : Form → Bool
  | .va | .stay | .go => true
  | _ => false

/-- How the migration table of 05 R144 treats an instruction. -/
inductive MoveCls where
  | loadStore | never | atomic
  deriving DecidableEq, Repr

/-- A scalar memory instruction after decoding (05 R143). -/
structure Plan where
  form : Form
  kind : Nat
  size : Nat
  off : Int
  info : Word
  cls : MoveCls
  /-- a full-empty qualifier is given -/
  fe : Bool
  /-- AMO and RED: no control space, and SYSATOM on a HOST page (05 R156, R157; 13 R413) -/
  rmw : Bool
  rl : Bool
  aq : Bool
  op : MemOp
  cont : Cont
  limit : Option Nat
  /-- the operand of an FP reduction, for the verdict check -/
  fpOperand : Option Word

/-! ### Where the strand goes -/

/-- The predictor's index (07 R228). -/
def predIndex (pc : Word) : Nat := fld pc 8 1
def Core.predicts (k : Core) (pc : Word) : Bool := tblGet 1 k.predictor (predIndex pc) ≥ 2
/-- The counter and LASTHOME after a VA access (07 R228). -/
def Core.train (k : Core) (n : Nat) (pc : Word) (home : CoreId) : Core :=
  let i := predIndex pc
  let v := tblGet 1 k.predictor i
  let v := if List.lookup n k.lastHome = some home then min 3 (v + 1) else v - 1
  { k with predictor := tblSet k.predictor i v, lastHome := tblSet k.lastHome n home }

/-- The detector at an access that would move (07 R229): the strand after it, and whether the access stays. -/
def detect (st : Strand) (lnD : Nat) : Strand × Bool :=
  if st.pinc != 0 then (st, false)
  else if lnD = st.det.prev then
    let win := if st.det.rev = 0 then 0 else st.det.win
    if st.det.rev = 2 then ({ st with pinc := 4096, det := { st.det with rev := 0, win := 0 } }, true)
    else ({ st with det := { st.det with rev := st.det.rev + 1, win := win } }, false)
  else ({ st with det := { st.det with rev := 0, win := 0 } }, false)

/-- The table of 05 R144 with its three overrides. -/
def State.wouldMove (s : State) (c : CoreId) (st : Strand) (cls : MoveCls) (form : Form) (pa : Nat) : Bool :=
  !st.pinned && !isHost pa && (homeOf pa).w = c.w && homeOf pa != c &&
  (match form, cls with
   | .va, .loadStore => (s.core c).predicts st.pc
   | .va, .atomic => true
   | .va, .never => false
   | .go, _ => true
   | _, _ => false)

/-! ### Failures of posted operations -/

def failAddr (p : Post) : Nat := p.va.toNat
/-- A posted operation failed: WHY 1 router refusal, 2 far-side refusal, 3 dead link, 4 switched-out core. Inside a trap's
drain it joins the replay queue in issue order, else the failure record (05 R178; 06 R193). -/
def Strand.postFailed (st : Strand) (p : Post) (why : Nat) : Strand :=
  let st := { st with posts := st.posts.filter (fun q => q.id != p.id) }
  match st.trap with
  | some _ =>
    let e : Replay := { id := p.id, pa := p.pa, data := p.data, rl := p.rl, why := why, state := 0, size := p.size, op := p.op, va := p.va }
    { st with rq := st.rq.filter (fun x => x.id ≤ e.id) ++ e :: st.rq.filter (fun x => e.id < x.id) }
  | none => { st with failrec := st.failrec.add (why = 3) (failAddr p) }

/-! ### Host memory (13 R413; 14 R425) -/

def State.hostDown (s : State) (pa : Nat) : Bool :=
  hostLink pa ≥ 12 || s.pkg.linksDown.contains (hostLink pa) || s.pkg.shelves.contains (hostLink pa)

/-- A logged agent's effect leaves the wafer: a fray notice goes to the home slice first (15 R443). -/
def State.fray (s : State) (c : CoreId) (asid : Nat) (lslot : Option Nat) (log : Bool) : State :=
  match log, s.logSlotOf (s.partOf c) asid with
  | true, some (_, l) =>
    if l.off then s
    else s.send c (s.homeSlice (s.partOf c) asid c) false (s.tagOf c lslot) (.fray (s.partOf c) asid)
  | _, _ => s

/-- A write in host memory satisfies the waits for any write to its bytes (05 R170; 13 R413): such a wait ends at its next turn with
the word's value. -/
def Strand.hostWake (st : Strand) (wrote : List (Nat × Nat)) : Strand :=
  match st.run with
  | .await cls r => if wroteAny r wrote then { st with run := .await cls { r with op := .load r.size .none } } else st
  | _ => st
def State.hostWrite (s : State) (pa : Nat) (data : List Byte) : State :=
  { s with mem := memWrite s.mem pa data,
           cores := s.cores.map (fun e =>
             (e.1, { e.2 with slots := e.2.slots.map (fun x => (x.1, x.2.hostWake [(pa, data.length)])) })) }

/-- The AHA performs an access in host memory (13 R413); none when a wait is not satisfied. -/
def State.hostServe (s : State) (r : MemReq) : Option (Answer × State) :=
  match r.op with
  | .load n _ => some (.plain (wd (s.memNat r.pa n)) true, s)
  | .store n d _ => some (.plain 0 true, s.hostWrite r.pa (leBytes n d.toNat))
  | .amo op n b cc =>
    let old := s.memNat r.pa n
    let x := amoNew op n old b cc
    some (.plain (Word.ofExact (sextInt old (8 * n))) x.2,
      if x.2 then s.hostWrite r.pa (leBytes n x.1) else s)
  | .add d =>
    let old := s.memNat r.pa 8
    some (.plain (wd old) true, s.hostWrite r.pa (leBytes 8 (old + d.toNat)))
  | .wait op n v => if waitHolds op n (s.memNat r.pa n) v then some (.plain (wd (s.memNat r.pa n)) true, s) else none
  | .post (.red op) n d =>
    let x := redApply op n (s.memNat r.pa n) (d.toNat % 2 ^ (8 * n))
    some (.plain 0 true, s.hostWrite r.pa (leBytes n x.1))
  | .post _ n d => some (.plain 0 true, s.hostWrite r.pa (leBytes n d.toNat))
  | .get n => some (.bytes (memRead s.mem r.pa n) 0, s)
  | .put data => some (.plain 0 true, s.hostWrite r.pa data)
  | .mark _ => some (.plain 0 true, s)

/-- The FP events of a reduction the AHA makes are counted on the issuing core (13 R413). -/
def State.hostFlags (s : State) (c : CoreId) (lslot : Option Nat) (r : MemReq) : State :=
  match r.op with
  | .post (.red op) n d =>
    if op.isFp then s.fpEvents c lslot (redApply op n (s.memNat r.pa n) (d.toNat % 2 ^ (8 * n))).2 0 else s
  | _ => s

/-! ### Answers -/

/-- A sequence is earlier than another (13 R399). -/
def seqBefore (q f : Nat) : Bool := q != f && (f + 2 ^ 32 - q) % 2 ^ 32 < 2 ^ 31
/-- The reply's sequence is earlier than the floor (13 R400). -/
def floorRejects (l : List (Nat × Nat)) (midx q : Nat) : Bool :=
  match l.find? (fun e => e.1 = midx) with
  | none => false
  | some (_, f) => seqBefore q f
/-- The mirror floor after an accepted reply: the entry is raised, never lowered, and becomes the most recently used (13 R400). -/
def floorRaise (l : List (Nat × Nat)) (midx q : Nat) : List (Nat × Nat) :=
  let rest := l.filter (fun e => e.1 != midx)
  let q := match l.find? (fun e => e.1 = midx) with
    | none => q
    | some (_, f) => if seqBefore q f then f else q
  (if rest.length ≥ 4 then rest.drop 1 else rest) ++ [(midx, q)]

/-- The value a load writes (05 R148). -/
def extend (signed : Bool) (size : Nat) (v : Word) : Word :=
  if signed then sext v (8 * size) else zext v (8 * size)

/-- A watchpoint match waits for the strand's next boundary (06 R191, R192). Where a second match arrives before that boundary, the first is
kept and the second is not reported: the model's choice (DESIGN CHOICE, log 52). -/
def Strand.watched (st : Strand) (pc : Word) (w : Option (Nat × Word × Nat)) : Strand :=
  match w, st.trap with
  | some (a, d, i), none => { st with trap := some { kind := 4, pc := st.pc, info := #v[wd a, d, pc, wd i] } }
  | _, _ => st

/-- A read of an uncorrectable granule faults (00 R13; 06 R187). -/
def fBadRead (pa : Nat) : FaultInfo := fUncorrectable (if inScratch (offOf pa) then 1 else 2) pa

/-- p3 and the result of a load (05 R148, R149). -/
def State.loadDone (s : State) (c : CoreId) (n : Nat) (st : Strand) (d : Reg) (size : Nat) (signed test : Bool) (v : Word)
    (full : Bool) : State :=
  if test then
    if full then s.writeBack c n (st.setP3 true) (some d) (extend signed size v)
    else s.complete c n (st.setP3 false)
  else s.writeBack c n st (some d) (extend signed size v)

/-- An access of the strand is complete with a value (05 R148, R155, R169, R170). -/
def State.valueDone (s : State) (c : CoreId) (n : Nat) (st : Strand) (r : MemReq) (v : Word) (flag : Bool)
    (w : Option (Nat × Word × Nat)) : State :=
  let st := st.watched st.pc w
  match r.cont with
  | .load d size signed test => s.loadDone c n st d size signed test v flag
  | .amo d _ cas => s.writeBack c n (if cas then st.setP3 flag else st) (some d) v
  | .wait _ _ => s.complete c n (st.setP3 true)
  | _ => s.complete c n st

/-! ### Making an access -/

/-- A parked local request (05 R150). -/
def State.parkLocal (s : State) (c : CoreId) (n : Nat) (st : Strand) (cls : WaitClass) (r : MemReq) : State :=
  (s.putStrand c n { st with run := .await cls r, deadline := r.limit }).modCore c (fun k =>
    { k with waiters := k.waiters ++ [{ ref := ⟨c, n, st.uid⟩, req := r, isLocal := true, msg := 0, tag := none }] })

def Cont.waitClass : Cont → WaitClass
  | .wait _ _ => .mem
  | .join => .msg
  | _ => .mem

/-- A plain read, or one granule of a block. -/
def MemOp.isRead : MemOp → Bool
  | .load _ .none => true
  | .get _ => true
  | _ => false
/-- The copy of a MIRROR page that serves a strand's plain read (11 R366; 13 R400, R401): its core and PA there. The strand reads its own
writes at the home, and goes there while its floor holds no entry for the page. -/
def State.nearestCopy (s : State) (c : CoreId) (st : Strand) (r : MemReq) : CoreId × Nat :=
  if !lfMirror r.leaf || !r.op.isRead || r.aq || s.mirrorsOpen st.uid || !st.posts.isEmpty ||
      (st.floor.find? (fun e => e.1 = lfMidx r.leaf)).isNone then (homeOf r.pa, r.pa)
  else let pa := s.nearPa c r.leaf r.pa; (homeOf pa, pa)
/-- The reply came from a mirror and is earlier than the floor (13 R400). -/
def staleCopy (st : Strand) (r : MemReq) (q : Nat) : Bool :=
  lfMirror r.leaf && homeOf r.pa != homeOf (fld r.leaf 51 16 * 65536) && floorRejects st.floor (lfMidx r.leaf) q
def Strand.raiseFloor (st : Strand) (r : MemReq) (q : Nat) : Strand :=
  if lfMirror r.leaf && (match r.op with | .load _ _ => true | .get _ => true | _ => false) then
    { st with floor := floorRaise st.floor (lfMidx r.leaf) q }
  else st

/-- The request of a strand goes to a core; the strand waits (05 R150, R155). -/
def State.sendRequest (s : State) (c : CoreId) (n : Nat) (st : Strand) (d : CoreId) (cls : WaitClass) (r : MemReq) : State :=
  ((s.putStrand c n { st with run := .await cls r, deadline := r.limit }).send c d false (s.tagOf c st.lslot)
    (.request ⟨c, n, st.uid⟩ r)).perf c 0x03 1

/-- The access faults (00 R13; 07 R232). -/
def accessFault (r : MemReq) : FaultInfo := fAccess (wd r.pa) 0

/-- Make an access from where the strand stands (05 R148, R155, R157, R170; 13 R413). -/
def State.perform (s : State) (c : CoreId) (n : Nat) (st : Strand) (r : MemReq) : State :=
  let h := homeOf r.pa
  let w := strandWriter c n st r.leaf
  if isHost r.pa then
    let isWrite := match r.op with | .load _ _ => false | .wait _ _ _ => false | _ => true
    let isPost := match r.op with | .post _ _ _ => true | .store _ _ _ => true | _ => false
    if s.hostDown r.pa then
      if isPost then
        let st' : Strand := { st with failrec := st.failrec.add true r.va.toNat }
        s.complete c n st'
      else s.takeFault c n st (accessFault r)
    else
      let s := if isWrite then s.fray c st.asid st.lslot st.stat.log else s
      match (s.hostFlags c st.lslot r).hostServe r with
      | none =>
        if s.isDue r.limit then s.waitExpired c n st r (wd (s.memNat r.pa r.size))
        else s.putStrand c n { st with run := .await r.cont.waitClass r, deadline := r.limit }
      | some (.value v flag _ _, s) => s.valueDone c n st r v flag none
      | some (_, s) => s.takeFault c n st (accessFault r)
  else match r.op with
    | .post pop size data =>
      if h = c then
        match pop with
        | .red op =>
          (s.redEnter c { pa := r.pa, op := op, size := size, data := data.toNat % 2 ^ (8 * size), asid := st.asid,
                          logged := st.stat.log, leaf := r.leaf, lslot := st.lslot, part := s.partOf c,
                          uid := st.uid }).complete c n st
        | _ =>
          match s.serve c { r with op := .store size data (if pop = .stff then .fill else .none) } w with
          | some (.value _ _ wt _, s) => s.complete c n (st.watched st.pc wt)
          | _ => s.complete c n st
      else
        let p : Post := { id := s.nextId, pc := st.pc, pa := r.pa, va := r.va, op := pop, data := data, size := size, rl := r.rl,
                          shift := r.shift }
        let s := if h.w != c.w then s.fray c st.asid st.lslot st.stat.log else s
        let s := (s.send c h false (s.tagOf c st.lslot) (.post ⟨c, n, st.uid⟩ p r.leaf st.asid st.stat.log st.lslot)).perf c 0x03 1
        s.complete c n { st with posts := st.posts ++ [p] }
    | _ =>
      let cls := r.cont.waitClass
      match r.cont with
      | .lds id _ =>
        let t := s.nearestCopy c st r
        let r : MemReq := { r with pa := t.2 }
        if t.1 = c then
          match s.serve c r w with
          | some (a, s) => s.answer c ⟨c, n, st.uid⟩ r a none
          | none => s.modCore c (fun k =>
              { k with waiters := k.waiters ++ [{ ref := ⟨c, n, st.uid⟩, req := r, isLocal := true, msg := id, tag := none }] })
        else (s.send c t.1 false (s.tagOf c st.lslot) (.request ⟨c, n, st.uid⟩ r)).perf c 0x03 1
      | _ =>
        let t := s.nearestCopy c st r
        if t.1 = c then
          match s.serve c { r with pa := t.2 } w with
          | none =>
            if s.isDue r.limit then s.waitExpired c n st r (wd (s.memNat t.2 r.size)) else s.parkLocal c n st cls r
          | some (.value v flag wt q, s') =>
            if staleCopy st { r with pa := t.2 } q then s'.sendRequest c n st h cls { r with aq := true }
            else s'.valueDone c n (st.raiseFloor r q) r v flag wt
          | some (.uncorrectable g, s') => s'.takeFault c n st (fBadRead g)
          | some (_, s') => s'.takeFault c n st (accessFault r)
        else
          let s := match r.op with
            | .amo _ _ _ _ => if h.w != c.w then s.fray c st.asid st.lslot st.stat.log else s
            | .store _ _ _ => if h.w != c.w then s.fray c st.asid st.lslot st.stat.log else s
            | .add _ => if h.w != c.w then s.fray c st.asid st.lslot st.stat.log else s
            | _ => s
          s.sendRequest c n st t.1 cls { r with pa := t.2 }

/-- An LDS issues: its record is kept, its destination is LOAD-pending and the strand continues (05 R153). Where its result is
pushed to a port, and in host memory, it acts as its blocking counterpart (09 R294). -/
def State.startLds (s : State) (c : CoreId) (n : Nat) (st : Strand) (d : Reg) (r : MemReq) : State :=
  let size := match r.op with | .load z _ => z | _ => 8
  if isHost r.pa || st.isPort d then s.perform c n st { r with cont := .load d size true false }
  else
    let id := s.nextId
    let st' : Strand := { st with lds := st.lds ++ [{ id := id, pc := st.pc, d := d, size := size, aq := r.aq, va := r.va, shift := r.shift }] }
    let s := ({ s with nextId := s.nextId + 1 } : State).putStrand c n (st'.setPend d .load).finish
    s.perform c n st { r with cont := .lds id d }

/-- An access that a moved strand brought with it (05 R148, R153). -/
def State.arrive (s : State) (c : CoreId) (n : Nat) (st : Strand) (r : MemReq) : State :=
  match r.cont with
  | .lds _ d => s.startLds c n st d r
  | _ => s.perform c n st r

/-! ### The sequence of 05 R143 -/

/-- The full-empty check of 05 R149. -/
def feFault (p : Plan) (va : Word) (pa : Nat) (leaf : Word) : Option FaultInfo :=
  if !p.fe then none
  else if Form.isVa p.form then
    if lfHost leaf || (!lfSync leaf && inDram (offOf pa)) then some (fPermission p.kind va leaf)
    else if inControl (offOf pa) then some (fAccess (wd pa) 0) else none
  else if inDram (offOf pa) || inControl (offOf pa) then some (fAccess (wd pa) 0) else none

/-- AMO and RED reach no control register, and a HOST page only with SYSATOM (05 R156, R157; 13 R413). -/
def rmwFault (p : Plan) (pa : Nat) (leaf : Word) : Option FaultInfo :=
  if !p.rmw then none
  else if isHost pa then (if lfSysatom leaf then none else some (fAccess (wd pa) 0))
  else if inControl (offOf pa) then some (fAccess (wd pa) 0) else none

/-- The checks of steps 5 to 7, in order. -/
def planFault (p : Plan) (va : Word) (pa : Nat) (leaf : Word) : Option FaultInfo :=
  if pa % p.size != 0 then some (fAlign va p.size)
  else match feFault p va pa leaf with
    | some f => some f
    | none =>
      match rmwFault p pa leaf with
      | some f => some f
      | none =>
        match p.fpOperand with
        | none => none
        | some v => if isVN .f32 v.toNat then some (fVerdict 1 (v.toNat % 2 ^ 32)) else none

/-- The access is posted when its home is away (05 R146). -/
def Plan.isPost (p : Plan) : Bool :=
  match p.op with
  | .post _ _ _ => true
  | _ => false
def Plan.isLds (p : Plan) : Bool :=
  match p.cont with
  | .lds _ _ => true
  | _ => false

/-- Whether the access moves the strand, and the strand after the detector: a third reversal stays (05 R144; 07 R229, R230; 17 R466: a move
of VA.GO counts). -/
def State.moving (s : State) (c : CoreId) (st : Strand) (p : Plan) (pa : Nat) : Bool × Strand × Bool :=
  if s.wouldMove c st p.cls p.form pa then
    let x := detect st (s.core (homeOf pa)).cfg.ln
    (!x.2, x.1, x.2)
  else (false, st, false)

/-- The limits and ordering an access waits for before its event (00 R14; 05 R146, R151). -/
def State.mustHold (s : State) (c : CoreId) (st : Strand) (p : Plan) (pa : Nat) (moves : Bool) : Bool :=
  (p.rl && !s.quiet c st ((homeOf pa).w != c.w || isHost pa)) ||
  (!moves && p.isPost && homeOf pa != c && !isHost pa && st.posts.length ≥ 8) ||
  (p.isLds && st.lds.length ≥ 8)

/-- What an access by virtual address teaches the core where it issues, with the counters of 07 R240 (07 R228). -/
def State.trainAt (s : State) (c : CoreId) (n : Nat) (st : Strand) (p : Plan) (pa : Nat) (moves pins : Bool) : State :=
  if Form.isVa p.form && !isHost pa then
    let s := if p.form = .va && p.cls = .loadStore && homeOf pa != c && !st.pinned then s.count c (if moves then 49 else 50) 1 else s
    let s := if pins then s.count c 48 1 else s
    s.modCore c (fun k => k.train n st.pc (homeOf pa))
  else s

/-- A scalar memory instruction from Resolve on (05 R143 steps 4 to 10). -/
def State.access (s : State) (c : CoreId) (n : Nat) (st : Strand) (base : Word) (p : Plan) (commit : State → State) : State :=
  if st.lds.any (fun l => l.aq) then s.block c n st .mem
  else match s.resolve (scalarCtx c n st) st p.form base p.off p.kind p.info with
    | .wait s => s.block c n st .mem
    | .fault f s => s.takeFault c n st f
    | .ok pa leaf s =>
      let va := if Form.isVa p.form then Word.ofExact (base.toNat + p.off) else wd pa
      match planFault p va pa leaf with
      | some f => s.takeFault c n st f
      | none =>
        let m := s.moving c st p pa
        let s := if p.rl then s.drainQueue c st else s
        if s.mustHold c st p pa m.1 then s.block c n st .mem
        else
          let r : MemReq := { pa := pa, va := va, op := p.op, cont := p.cont, aq := p.aq, rl := p.rl, leaf := leaf,
                              limit := p.limit, shift := if leaf = 0 then 16 else s.shiftAt (scalarCtx c n st) va }
          let s := (commit s).trainAt c n st p pa m.1 m.2.2
          if m.1 then s.putStrand c n { m.2.1 with run := .departing (homeOf pa) (some r) }
          else s.arrive c n m.2.1 r

end Sys2Proof.Machine
end

