-- ==== Sys2Proof/Machine/CoatWords.lean ====
section
/-! DEFINITION. A coat as the links and the entries of cloakroom and spill shed hold it: payload, control words and loop annex, and the
entries of the spill shed in DRAM (07 R217, R218, R221, R227). -/
namespace Sys2Proof.Machine
open Sys2Proof

/-- Fields of the given widths, the lowest first, as one number. -/
def packFields : List (Nat × Nat) → Nat
  | [] => 0
  | (w, v) :: t => v % 2 ^ w + 2 ^ w * packFields t
/-- The field of w bits from bit `lo` on. -/
def bitField (n lo w : Nat) : Nat := n / 2 ^ lo % 2 ^ w

/-- A migration is heavy (01 R35). -/
def Strand.heavyMove (st : Strand) : Bool := st.stat.heavy || st.ldep ≥ 3

/-- LS[55:1] and (LE - LS) / 2 of a loop level. -/
def Loop.packed (l : Loop) : List (Nat × Nat) := [(55, fld l.ls 55 1), (18, (l.le - l.ls).toNat / 2), (64, l.lc.toNat)]
/-- The status area (07 R217). -/
def Strand.statusArea (st : Strand) : Nat :=
  let h := hpendBits st
  packFields ([(55, fld st.pc 55 1), (53, fld st.jw 55 3)] ++ st.loops[0].packed ++ st.loops[1].packed ++
    [(32, st.failrec.first), (16, st.failrec.fails), (1, b01 st.failrec.refused), (1, b01 st.failrec.deadlink),
     (8, (setBit st.statWord 2 false).toNat), (3, fld st.fcw.toWord 2 0), (5, fld st.fcw.toWord 12 8), (4, predBits st), (3, st.ldep),
     (8, h), (13, st.pinc), (2, st.det.rev), (7, st.det.win), (16, st.det.prev), (8, if st.heavyMove then h / 256 else 0), (3, 0)])

/-- A VA rebuilt from its bits above `lo` (07 R217). -/
def rebuildVa (bits lo : Nat) : Word := sextVA (wd (bits * 2 ^ lo))
/-- A loop level rebuilt from the field at `lo`: LE is LS + 2 × LEN. -/
def Loop.unpacked (n lo : Nat) : Loop :=
  let ls := rebuildVa (bitField n lo 55) 1
  { ls := ls, le := ls + wd (2 * bitField n (lo + 55) 18), lc := wd (bitField n (lo + 73) 64) }
def Stat.ofByte (n : Nat) : Stat :=
  let b : Nat → Bool := fun i => n / 2 ^ i % 2 = 1
  { pinhold := b 7, log := b 6, wtrap := b 5, qbound := b 4, vbound := b 3, heavy := b 1, priv := b 0 }
/-- The strand with the items of a status area (07 R217). -/
def Strand.ofStatus (st : Strand) (n : Nat) : Strand :=
  let h := bitField n 455 8 + 256 * bitField n 501 8
  let q := bitField n 448 4
  { st with
    pc := rebuildVa (bitField n 0 55) 1, jw := rebuildVa (bitField n 55 53) 3,
    loops := (st.loops.set 0 (Loop.unpacked n 108)).set 1 (Loop.unpacked n 245),
    failrec := { first := bitField n 382 32, fails := bitField n 414 16, refused := bitField n 430 1 = 1,
                 deadlink := bitField n 431 1 = 1 },
    stat := Stat.ofByte (bitField n 432 8), fcw := Fcw.ofWord (wd (bitField n 440 3 + 256 * bitField n 443 5)),
    p := Vector.ofFn (fun i : Fin 4 => q / 2 ^ i.val % 2 = 1), ldep := bitField n 452 3,
    pend := Vector.ofFn (fun i : Fin 16 => if h / 2 ^ i.val % 2 = 1 then .handle else .clear), pinc := bitField n 463 13,
    det := { rev := bitField n 476 2, win := bitField n 478 7, prev := bitField n 485 16 } }

/-- The general registers a coat carries; a light one leaves g8 to g15 at 0 (01 R36, R37). -/
def Strand.coatRegs (st : Strand) : Vector Word 16 :=
  if st.heavyMove then st.g else Vector.ofFn (fun r : Fin 16 => if r.val < 8 then st.g[r] else 0)
/-- The strand as its coat carries it: rebuilt from the payload. PIX never travels, and levels 2 and 3 come with the annex (01 R34 to R37; 07
R217, R221). The length of a moved access's own chain goes with it, so that the strand continues after it (05 R143). -/
def Strand.coat (st : Strand) : Strand :=
  { (st.ofStatus st.statusArea) with g := st.coatRegs, pix := none, fwd := 0, bounce := 0, run := .ready, deadline := none }

/-- The payload: 128 or 192 bytes (07 R217). -/
def Strand.payload (st : Strand) : List Byte :=
  (((st.coatRegs.toList.take (if st.heavyMove then 16 else 8)).map (fun v => leBytes 8 v.toNat)).flatten) ++ leBytes 64 st.statusArea
/-- The two control words (07 R218); `back` is the return class of a bounced coat. -/
def Coat.head (x : Coat) (back : Bool) : Word :=
  let l := match x.st.lslot with | none => 0 | some l => l
  wd (packFields [(10, 0), (3, x.bounce), (8, x.fwd), (3, l), (2, if x.st.heavyMove then 3 else 2), (1, 0), (1, b01 back), (4, 1),
    (8, x.src.y), (8, x.src.x), (8, x.dst.y), (8, x.dst.x)])
def Coat.second (x : Coat) : Word :=
  wd (packFields [(5, x.st.member), (1, b01 x.st.spawned), (10, 0), (16, x.st.cln), (32, x.st.sid)])
/-- The loop annex (07 R221). -/
def Strand.annex (st : Strand) : List Byte :=
  ([st.loops[2], st.loops[3]].map (fun l => leBytes 8 l.ls.toNat ++ leBytes 8 l.le.toNat ++ leBytes 8 l.lc.toNat)).flatten
/-- An entry of 256 bytes: the payload, padded to that of a heavy coat, the control words and the annex (07 R227; log 54). -/
def Coat.entryBytes (x : Coat) : List Byte :=
  (x.st.payload ++ leBytes 64 0).take 192 ++ leBytes 8 (x.head false).toNat ++ leBytes 8 x.second.toNat ++ x.st.annex

/-- The lowest entry of the spill shed not in use. -/
def Core.freeSpill (k : Core) : Nat := ((span 0 4097).find? (fun i => k.spill.all (fun x => x.entry != i))).getD 4096
/-- A coat joins the shed's tail; its entry is written (07 R223, R227; log 54). -/
def State.shedPut (s : State) (c : CoreId) (x : Coat) : State :=
  let k := s.core c
  let x : Coat := { x with place := 33, entry := k.freeSpill }
  let pa := k.spillPa c x.entry
  let g := entryGranules pa
  let s : State := { s with mem := memWrite s.mem pa x.entryBytes, ecc := s.ecc.filter (fun y => !g.contains y),
                            soft := s.soft.filter (fun y => !g.contains y) }
  s.modCore c (fun k => { k with spill := k.spill ++ [x] })

end Sys2Proof.Machine
end

