-- ==== Sys2Proof/Machine/Life.lean ====
section
/-! DEFINITION. How strands begin and end: room for a child, admission of a child, the end of a strand, and the add to a join word
(01 R30; 05 R166, R168; 06 R200; 07 R236; 08 R248). -/
namespace Sys2Proof.Machine
open Sys2Proof

/-! ### Places -/

/-- The place a child takes: a free slot, else the cloakroom (32), else the spill shed (33) (05 R166 step 3). -/
def Core.room (k : Core) : Option Nat :=
  match k.pickSlot with
  | some n => some n
  | none =>
    if k.cloakUsed < k.cloakDepth then some 32
    else if k.spillUsed < k.spillLimit then some 33
    else none

/-- A strand of this core as a waiting coat. -/
def waitingCoat (c : CoreId) (st : Strand) : Coat :=
  { st := st, op := none, src := c, entry := 64, dst := c, fwd := st.fwd, bounce := st.bounce, needDesc := false, needAnnex := false,
    place := 32, mark := .clean, keepPrev := true, vec := none }

/-- A strand takes a place of the core (07 R209, R223). -/
def State.takePlace (s : State) (c : CoreId) (place : Nat) (st : Strand) : State :=
  if place = 32 then State.refill 32 (s.modCore c (fun k => { k with cloak := k.cloak ++ [waitingCoat c st] })) c
  else if place = 33 then State.refill 32 (State.unspill 1 (s.shedPut c (waitingCoat c st)) c) c
  else s.enterSlot c place st

/-! ### A child (01 R30) -/

def childOf (st : Strand) (uid sid : Nat) (target : Word) (heavy : Bool) : Strand :=
  let p := zeroPorts st
  { Strand.fresh with
    uid := uid, sid := sid, pc := target,
    g := Vector.ofFn (fun r : Fin 16 => if heavy || r.val < 8 then p.g[r] else 0),
    pend := Vector.ofFn (fun r : Fin 16 => if heavy || r.val < 8 then p.pend[r] else .clear),
    fcw := { st.fcw with flags := Flags.none },
    stat := { Stat.reset with priv := st.stat.priv, wtrap := st.stat.wtrap, log := st.stat.log, heavy := heavy },
    jw := st.jw, fmta := st.fmta, fmtb := st.fmtb, sca := st.sca, scb := st.scb, task := st.task, gang := st.gang,
    crew := setBit st.crew 5 true, asid := st.asid, cln := st.cln, lslot := st.lslot }

/-- The last step of SPAWN: the child is admitted and the parent continues (05 R166 step 5). -/
def State.spawnDone (s : State) (c : CoreId) (n : Nat) (st : Strand) (target : Word) (heavy : Bool) (place : Nat) : State :=
  let r := s.newSid c
  (r.2.2.complete c n st).takePlace c place (childOf st r.2.1 r.1 target heavy)

def Core.unreserve (k : Core) (place : Nat) : Core := { k with reserved := removeFirst (· = place) k.reserved }

/-! ### The end of a strand -/

/-- The vector context of a strand is released (08 R248). -/
def State.freeVector (s : State) (c : CoreId) (st : Strand) : State :=
  match st.vctx with
  | none => s
  | some i => s.modCore c (fun k => { k with vctx := k.vctx.filter (fun e => e.1 != i) })

/-- The vector context and the queue of a strand are released. -/
def State.freeUnits (s : State) (c : CoreId) (n : Nat) (st : Strand) : State :=
  (s.freeVector c st).queueFree c n st |>.2

/-- A member's EXIT is told to its crew core (07 R236). -/
def State.crewExit (s : State) (c : CoreId) (st : Strand) : State :=
  match st.lslot with
  | none => s
  | some l =>
    if st.spawned then s
    else match s.lnCore (s.partOf c) st.cln with
      | none => s
      | some d => s.send c d false (s.tagOf c st.lslot) (.crewExit l st.member)

/-- The strand ends (05 R168): a handler ends its trapped strand and discards the frame (06 R200). -/
def State.exitDone (s : State) (c : CoreId) (n : Nat) (st : Strand) : State :=
  let s := (s.crewExit c st).freeUnits c n st
  match st.handlerOf with
  | none => s.freeSlot c n
  | some f =>
    let s := match List.lookup f (s.core c).frozen with
      | none => s
      | some fr => s.freeUnits c f fr.st
    (s.modCore c (fun k => { k with frozen := k.frozen.filter (fun e => e.1 != f) })).freeSlot c n

/-- The join word an EXIT decrements: a handler's EXIT acts for the trapped strand (06 R200). -/
def State.exitWord (s : State) (c : CoreId) (st : Strand) : Word :=
  match st.handlerOf with
  | none => st.jw
  | some f =>
    match List.lookup f (s.core c).frozen with
    | none => 0
    | some fr => fr.st.jw

/-! ### The acknowledged add to a join word -/

/-- What the strand does once its add is acknowledged (05 R166, R168). -/
def State.addDone (s : State) (c : CoreId) (n : Nat) (st : Strand) (r : MemReq) : State :=
  match r.cont with
  | .spawn target heavy place => s.spawnDone c n st target heavy place
  | .exit => s.exitDone c n st
  | _ => s.complete c n st

/-- The add is made at once where the word is homed HERE or in host memory, else sent as a request (05 R166, R168). -/
def State.addWord (s : State) (c : CoreId) (n : Nat) (st : Strand) (r : MemReq) : State :=
  if isHost r.pa then
    if !lfSysatom r.leaf || s.hostDown r.pa then s.takeFault c n st (accessFault r)
    else match (s.fray c st.asid st.lslot st.stat.log).hostServe r with
      | some (_, s) => s.addDone c n st r
      | none => s.block c n st .mem
  else if homeOf r.pa = c then
    match s.serve c r (strandWriter c n st r.leaf) with
    | some (.value _ _ w _, s) => s.addDone c n (st.watched st.pc w) r
    | some (.uncorrectable g, s) => s.takeFault c n st (fBadRead g)
    | _ => s.takeFault c n st (accessFault r)
  else
    (if (homeOf r.pa).w != c.w then s.fray c st.asid st.lslot st.stat.log else s).sendRequest c n st (homeOf r.pa) .mem r

/-- Resolve of a join word, with the wait and the fault it may give (05 R166, R168, R169). -/
def State.joinWord (s : State) (c : CoreId) (n : Nat) (st : Strand) (jw : Word) (kind : Nat) (info : Word)
    (k : Nat → Word → State → State) : State :=
  match s.resolve (scalarCtx c n st) st .va jw 0 kind info with
  | .wait s => s.block c n st .mem
  | .fault f s => s.takeFault c n st f
  | .ok pa leaf s => k pa leaf s

def joinReq (pa : Nat) (jw leaf : Word) (op : MemOp) (k : Cont) : MemReq :=
  { pa := pa, va := jw, op := op, cont := k, aq := false, rl := false, leaf := leaf, limit := none }

end Sys2Proof.Machine
end

