-- ==== Sys2Proof/Machine/Gang.lean ====
section
/-! DEFINITION. Launch records, the rectangles of gangs and their crews (10 R330, R338, R345). -/
namespace Sys2Proof.Machine
open Sys2Proof

/-! ### The launch record (10 R330) -/

def recWord (w : Vector Word 8) (i : Nat) : Word := w.toList.getD i 0
def recEntry (w : Vector Word 8) : Word := recWord w 0
def recPreemptible (w : Vector Word 8) : Bool := bitAt (recWord w 1) 63
def recHeavy (w : Vector Word 8) : Bool := bitAt (recWord w 1) 62
def recLog (w : Vector Word 8) : Bool := bitAt (recWord w 1) 61
def recCount (w : Vector Word 8) : Nat := fld (recWord w 1) 48 24
def recPrio (w : Vector Word 8) : Nat := fld (recWord w 1) 18 16
def recCrew (w : Vector Word 8) : Nat := fld (recWord w 1) 13 8
def recGh (w : Vector Word 8) : Nat := fld (recWord w 1) 7 4
def recGw (w : Vector Word 8) : Nat := fld (recWord w 1) 3 0
def recDeps (w : Vector Word 8) : List Word := [recWord w 2, recWord w 3].filter (fun h => h != 0)
def recDone (w : Vector Word 8) : Word := recWord w 4
def recArgs (w : Vector Word 8) : Word := recWord w 5

/-! ### Launches and gangs -/

/-- The launch with an identity: its place in the order of enqueue. -/
def Partition.launch (x : Partition) (order : Nat) : Option Launch := x.launches.find? (fun l => l.order = order)
def Partition.slotLaunch (x : Partition) (slot : Nat) : Option Launch := x.launches.find? (fun l => l.slot = some slot)
def State.modLaunch (s : State) (p order : Nat) (f : Launch → Launch) : State :=
  s.modPart p (fun x => { x with launches := x.launches.map (fun l => if l.order = order then f l else l) })

/-- The cores of a rectangle of gw + 1 columns and gh + 1 rows, row by row. -/
def rectCores (w x0 y0 gw gh : Nat) : List CoreId :=
  ((span 0 (gh + 1)).map (fun j => (span 0 (gw + 1)).map (fun i => ({ w := w, x := x0 + i, y := y0 + j } : CoreId)))).flatten
/-- A partition's wafer in the model's numbering. -/
def waferOfPart (p : Nat) : Nat := p / 16
def Launch.gangCores (l : Launch) (p : Nat) (g : Gang) : List CoreId :=
  rectCores (waferOfPart p) g.x0 g.y0 (recGw l.words) (recGh l.words)

/-- The core that answers for a crew core: its heir once it is retired (07 R232, R236). -/
def State.standIn (s : State) (c : CoreId) : CoreId :=
  match s.landsAt 9 (coreBase c) with
  | none => c
  | some pa => homeOf pa
def State.crewCore (s : State) (c : CoreId) (st : Strand) : Option CoreId :=
  (s.lnCore (s.partOf c) st.cln).map s.standIn

end Sys2Proof.Machine
end

