-- ==== Sys2Proof/Machine/Blocks.lean ====
section
/-! DEFINITION. Blocks of memory that an instruction reads through a VA, one 16-byte granule at a turn: descriptors and records (00 R13;
13 R397; 09 R283, R300); the bytes at a PA that fetch and the engines read; and waits with a limit that end in p3 or in WAIT-EXPIRY (05 R171; 09 R285). -/
namespace Sys2Proof.Machine
open Sys2Proof

/-- Bytes read; the state in which the strand waits for more of them; or the fault of the read. -/
inductive Got where
  | ok (bytes : List Byte) (s : State)
  | wait (s : State)
  | fault (f : FaultInfo) (s : State)

/-- Bytes at a PA, or the fault of the read. -/
inductive PaRead where
  | ok (bytes : List Byte) (s : State)
  | fault (f : FaultInfo) (s : State)

/-- n bytes at a PA (00 R13; 07 R213): `reason` replaces REASON of UNCORRECTABLE for an engine's input. -/
def State.readPa (s : State) (pa n : Nat) (leaf : Word) (engine : Bool) : PaRead :=
  if isHost pa then
    if s.hostDown pa then .fault (fAccess (wd pa) 0) s else .ok (memRead s.mem pa n) s
  else match s.landsAt 9 pa with
  | none => .fault (fAccess (wd pa) 0) s
  | some pa =>
    let h := homeOf pa
    if inControl (offOf pa) then .ok (((span 0 (n / 8)).map (fun i => leBytes 8 (s.ctlWord h (offOf pa - 0x30000000 + 8 * i)).toNat)).flatten) s
    else
      let s := s.closeLines h pa n
      match s.badGranule pa n with
      | none => .ok (memRead s.mem pa n) (s.correct h pa n)
      | some g =>
        if lfExpendable leaf then
          .ok ((span pa n).map (fun a => if setHas s.ecc (granule a) then 0 else memGet s.mem a)) (s.countError h 2)
        else
          .fault (fUncorrectable (if engine then 3 else if inScratch (offOf (16 * g)) then 1 else 2) (16 * g)) s

/-- A read from core c that another wafer's router refuses, or that no link carries (16 R454, R458). -/
def State.farBlocked (s : State) (c : CoreId) (pa : Nat) : Bool :=
  !isHost pa && (s.waferDown c.w (homeOf pa).w || s.farRefuses c pa)

/-- The request for one granule of a block, or for its part at either end. -/
def granuleReq (pa : Nat) (va leaf : Word) (shift : Nat) (op : MemOp) : MemReq :=
  { pa := pa, va := va, op := op, cont := .block, aq := false, rl := false, leaf := leaf, limit := none, shift := shift }
/-- Bytes that follow those of an image. -/
def imgAppend (img : List Host.Cell) (pos : Nat) (l : List Byte) : List Host.Cell :=
  img ++ ((List.zip (span pos l.length) l).filter (fun c => c.2 != unwritten))
/-- The strand has more bytes of its block: those of a save record go to its image. -/
def Strand.took (st : Strand) (l : List Byte) : Strand :=
  match st.bulk with
  | none => { st with rbuf := st.rbuf ++ l, run := .blocked .mem }
  | some b =>
    if b.len = 0 then { st with rbuf := st.rbuf ++ l, run := .blocked .mem }
    else { st with bulk := some { b with img := imgAppend b.img b.pos l, pos := b.pos + l.length }, run := .blocked .mem }

/-- The read of the next granule of a block at an address in a form, from byte pos on: one event, at its home or at the nearest copy of a MIRROR page. -/
def State.readGranule (s : State) (c : CoreId) (n : Nat) (st : Strand) (form : Form) (kind : Nat) (va : Word) (pos len : Nat)
    (info : Word) : Got :=
  let a := va + wd pos
  let k := min (len - pos) (16 - a.toNat % 16)
  match s.resolve (scalarCtx c n st) st form va pos kind info with
  | .wait s => .wait (s.block c n st .mem)
  | .fault f s => .fault f s
  | .ok pa leaf s =>
    if isHost pa then
      if s.hostDown pa then .fault (fAccess (wd pa) 0) s else .wait (s.putStrand c n (st.took (memRead s.mem pa k)))
    else
      let r := granuleReq pa a leaf (s.shiftAt (scalarCtx c n st) a) (.get k)
      let t := s.nearestCopy c st r
      if t.1 = c then
        match s.serve c { r with pa := t.2 } (strandWriter c n st leaf) with
        | some (.bytes l q, s') =>
          if staleCopy st { r with pa := t.2 } q then .wait (s'.sendRequest c n st (homeOf pa) .mem { r with aq := true })
          else .wait (s'.putStrand c n ((st.raiseFloor r q).took l))
        | some (.uncorrectable g, s') => .fault (fBadRead g) s'
        | some (_, s') => .fault (fAccess (wd pa) 0) s'
        | none => .wait (s.block c n st .mem)
      else .wait (s.sendRequest c n st t.1 .mem { r with pa := t.2 })
/-- Load(Resolve(VA, va, 0, kind), len bytes) of an instruction whose reads have brought `skip` bytes before (00 R10, R12, R13): each turn
makes one event, and once all bytes are in hand the instruction goes on. -/
def State.readBlock (s : State) (c : CoreId) (n : Nat) (st : Strand) (form : Form) (kind skip : Nat) (va : Word) (len : Nat)
    (info : Word) : Got :=
  if skip + len ≤ st.rbuf.length then .ok ((st.rbuf.drop skip).take len) s
  else s.readGranule c n st form kind va (st.rbuf.length - skip) len info
def State.readVaAt (s : State) (c : CoreId) (n : Nat) (st : Strand) (skip : Nat) (va : Word) (len : Nat) (info : Word) : Got :=
  s.readBlock c n st .va kRead skip va len info
/-- The first read of an instruction. -/
def State.readVa (s : State) (c : CoreId) (n : Nat) (st : Strand) (va : Word) (len : Nat) (info : Word) : Got :=
  s.readVaAt c n st 0 va len info

/-- The write of the next granule of a block, acknowledged: one event at its home (00 R13). Control space takes no block. -/
def State.putGranule (s : State) (c : CoreId) (n : Nat) (st : Strand) (va : Word) (b : Bulk) (info : Word) : State :=
  let a := va + wd b.pos
  let k := min (b.len - b.pos) (16 - a.toNat % 16)
  let img := b.img.dropWhile (fun x => x.1 < b.pos)
  let data := memRead img b.pos k
  let held : Strand := { st with bulk := some { b with img := img } }
  let done : Strand := { st with bulk := some { b with img := img, pos := b.pos + k } }
  match s.resolve (scalarCtx c n st) st .va va b.pos kWrite info with
  | .wait s => s.block c n held .mem
  | .fault f s => s.takeFault c n st f
  | .ok pa leaf s =>
    let s := if isHost pa || (homeOf pa).w != c.w then s.fray c st.asid st.lslot st.stat.log else s
    if isHost pa then
      if s.hostDown pa then s.takeFault c n st (fAccess (wd pa) 0)
      else ({ s with mem := memWrite s.mem pa data } : State).block c n done .mem
    else if inControl (offOf pa) then s.block c n done .mem
    else
      let r := granuleReq pa a leaf (s.shiftAt (scalarCtx c n st) a) (.put data)
      if homeOf pa = c then
        match s.serve c r (strandWriter c n st leaf) with
        | some (_, s) => s.block c n done .mem
        | none => s.block c n held .mem
      else s.sendRequest c n held (homeOf pa) .mem r

/-- Bytes written at a PA: host memory, control space, or one event at the home. -/
def State.writePa (s : State) (pa : Nat) (data : List Byte) (w : Writer) : State :=
  if isHost pa then (if s.hostDown pa then s else { s with mem := memWrite s.mem pa data })
  else if inControl (offOf pa) then s
  else (s.put (homeOf (s.lands pa)) [(s.lands pa, data)] [] w).1

/-- A doubleword of bytes read. -/
def dwAt (b : List Byte) (off : Nat) : Word := wd (ofLe ((b.drop off).take 8))

/-! ### Waits with a limit -/

/-- Block(WAIT-MSG, ok, limit) for a condition of HERE (00 R16). -/
def State.waitHere (s : State) (c : CoreId) (n : Nat) (st : Strand) (limit : Word) (ok : Bool) (info : Vector Word 4)
    (commit : State → State) : State :=
  if ok then (commit s).complete c n (st.setP3 true)
  else
    let d := s.limitAt st limit
    if s.isDue d then s.expire c n st info commit
    else s.block c n { st with deadline := d } .msg

/-- INFO3 of WAIT-EXPIRY (06 R191; log 21). -/
def expiryInfo (page major fn size : Nat) : Word := wd (size * 2 ^ 24 + page * 65536 + major * 256 + fn)

end Sys2Proof.Machine
end

