-- ==== Sys2Proof/Machine/Copies.lean ====
section
/-! DEFINITION. Scheduler records, feature proxies, COPY and the steps of a copy (06 R205, R206; 09 R295 to R304). -/
namespace Sys2Proof.Machine
open Sys2Proof

/-! ### Features and proxies (06 R205, R206; 07 R231) -/

/-- A feature by its FEAT bit: 1 VEC, 2 MAT, 3 COPY (either channel). -/
def Core.has (k : Core) (bit : Nat) : Bool :=
  if bit = 3 then k.cfg.mask / 8 % 4 != 0 else k.cfg.mask / 2 ^ bit % 2 = 1
/-- The LN of the proxy for a feature; 0xFFFF is NONE. -/
def Core.proxyLn (k : Core) (bit : Nat) : Nat :=
  if bit = 1 then fld k.cfg.proxy 15 0 else if bit = 2 then fld k.cfg.proxy 31 16 else fld k.cfg.proxy 47 32

/-- The next proxy after `hops` hops; none where the request ends in FEATURE-ABSENT. -/
def State.nextProxy (s : State) (c : CoreId) (bit hops : Nat) : Option CoreId :=
  let ln := (s.core c).proxyLn bit
  if hops ≥ 3 || ln = 0xFFFF then none else s.lnCore (s.partOf c) ln

/-- The chain of proxies from c reaches the feature, or the hops made when it does not. -/
def State.proxyChain (s : State) (bit : Nat) : Nat → CoreId → Nat → Option Nat
  | 0, _, hops => some hops
  | f + 1, c, hops =>
    if (s.core c).has bit then none
    else match s.nextProxy c bit hops with
      | none => some hops
      | some d => s.proxyChain bit f d (hops + 1)

/-- An engine request leaves for the proxy; the fault is raised before any effect (06 R206). REASON of FEATURE-ABSENT for a COPY that neither
channel can take is bit 3, COPY0: 06 R187 names COPY0 or COPY1 and does not say which (DESIGN CHOICE, log 53). -/
def State.toProxy (s : State) (c : CoreId) (n : Nat) (st : Strand) (bit : Nat) (k : Cont) (body : Body) : State :=
  match s.proxyChain bit 5 c 0, s.nextProxy c bit 0 with
  | none, some d =>
    (s.putStrand c n { st with run := .await .msg (waitFor k) }).send c d false (s.tagOf c st.lslot) body
  | some hops, _ => s.takeFault c n st (fFeature bit hops)
  | _, none => s.takeFault c n st (fFeature bit 0)

/-! ### Records (09 R295, R296) -/

def Core.freeRecord (k : Core) : Option Nat := (span 0 32).find? (fun i => (List.lookup i k.records).isNone)
def State.record (s : State) (c : CoreId) (i : Nat) : Option Record := List.lookup i (s.core c).records
def State.setRecord (s : State) (c : CoreId) (i : Nat) (r : Record) : State :=
  s.modCore c (fun k => { k with records := tblSet k.records i r })

def Record.isCopy (r : Record) : Bool :=
  match r.job with
  | .copy _ => true
  | .matrix _ => false
def Record.running (r : Record) : Bool :=
  match r.state with
  | .running => true
  | _ => false
def Record.isPending (r : Record) : Bool :=
  match r.state with
  | .pending => true
  | _ => false
def Record.queued (r : Record) : Bool := !r.running && !r.isPending

/-- A record of the strand's operation, not yet in a scheduler. -/
def recordOf (c : CoreId) (st : Strand) (prio : Bool) (deps : List Word) (job : Job) : Record :=
  { seq := 0, asid := st.asid, lslot := st.lslot, sid := st.sid, log := st.stat.log, priv := st.stat.priv, gang := st.gang,
    origin := c, cln := st.cln, prio := prio, order := 0, deps := deps.filter (fun h => h != 0), state := .waitdep,
    cancel := false, held := false, job := job }

/-- An operation takes record i of a scheduler; its handle (09 R295). -/
def State.takeRecord (s : State) (c : CoreId) (i : Nat) (r : Record) : Word × State :=
  let q := s.boardTake c i
  let k := q.2.core c
  (mkHandle (if r.isCopy then 0 else 1) k.cfg.ln i q.1,
    (q.2.setCore c { k with issueNo := k.issueNo + 1 }).setRecord c i { r with seq := q.1, order := k.issueNo })

/-- The rings a matrix task names (09 R306, R308, R316). -/
def matrixRings (m : MatrixJob) : List Nat :=
  let w := m.words.toList.getD 0 0
  if fld w 62 61 = 0 then
    [fld w 29 26, fld w 25 22] ++ (if bitAt w 55 then [fld w 21 18] else [])
  else [fld w 29 26, fld w 21 18]

/-- TASKREF of the named rings changes (09 R296, R306). -/
def State.taskRefs (s : State) (c : CoreId) (up : Bool) : List Nat → State
  | [] => s
  | i :: t =>
    let s := match s.ring c i with
      | none => s
      | some r => s.setRing c i { r with taskref := if up then (r.taskref + 1) % 256 else r.taskref - 1 }
    s.taskRefs c up t

/-- A record ends: the board entry, TASKREF and the trace (09 R296; 15 R447). -/
def State.endRecord (s : State) (c : CoreId) (i : Nat) (r : Record) (e : EndState) : State :=
  let s := s.boardEnd c i r.seq e r.job.progress
  let s := s.modCore c (fun k => { k with records := k.records.filter (fun x => x.1 != i) })
  let s := match r.job with
    | .copy _ => s
    | .matrix m => s.taskRefs c false (matrixRings m)
  s.trace c (if r.isCopy then 2 else 4) (r.lslot.getD 0)
    (mkHandle (if r.isCopy then 0 else 1) (s.core c).cfg.ln i r.seq).toNat

/-- A unit's fault ends its record and the launch (06 R188, R189; 09 R296). -/
def State.recordFault (s : State) (c : CoreId) (i : Nat) (r : Record) (f : FaultInfo) : State :=
  let h := mkHandle (if r.isCopy then 0 else 1) (s.core c).cfg.ln i r.seq
  (s.endRecord c i r .faulted).reportFault c r.asid r.lslot (if r.isCopy then 2 else 1) r.sid 0 h f

/-- The units of a record stand still: a stop of the core, of its launch, or of its logged context (09 R324; 15 R439, R445). -/
def State.unitHeld (s : State) (c : CoreId) (r : Record) : Bool :=
  r.held || (s.core c).dbg.stop ||
  (match s.logSlotOf (s.partOf c) r.asid with
    | none => false
    | some (_, l) => l.frozen && r.lslot.isSome)

/-! ### Addresses of a unit -/

def formOf : Nat → Form
  | 0 => .va | 1 => .stay | 2 => .go | 3 => .loc | 4 => .rel | 5 => .ln | _ => .phys

/-- A unit resolves an address under its issuing strand's context; LOC and REL mean the core of the issue (09 R300, R301). -/
def State.unitResolve (s : State) (c : CoreId) (r : Record) (form : Form) (base : Word) (off : Int) (kind : Nat) : Tr :=
  let st : Strand := { Strand.fresh with gang := r.gang, asid := r.asid, stat := { Stat.reset with priv := r.priv } }
  s.resolve { core := if Form.isVa form then c else r.origin, barrel := none, asid := r.asid, priv := r.priv, uid := none } st form
    base off kind (memberInfo 3 4 0)

/-- What a unit's read gives. -/
inductive UnitRead where
  | ok (bytes : List Byte) (s : State)
  | wait (s : State)
  | fault (f : FaultInfo) (s : State)

/-- A unit reads n bytes, line by line. -/
def State.unitRead : Nat → State → CoreId → Record → Form → Word → Nat → Nat → UnitRead
  | 0, s, _, _, _, _, _, _ => .ok [] s
  | f + 1, s, c, r, form, base, off, n =>
    if n = 0 then .ok [] s
    else
      let k := min n (64 - (base.toNat + off) % 64)
      match s.unitResolve c r form base off kRead with
      | .wait s => .wait s
      | .fault e s => .fault e s
      | .ok pa leaf s =>
        match (if s.farBlocked c pa then .fault (fAccess (wd pa) 0) s else s.readPa (s.nearPa c leaf pa) k leaf true) with
        | .fault e s => .fault e s
        | .ok b s =>
          match State.unitRead f (if isHost pa then s else s.trip c (homeOf (s.nearPa c leaf pa)) r.lslot) c r form base (off + k) (n - k) with
          | .ok t s => .ok (b ++ t) s
          | x => x

/-- A unit's write event (15 R434). -/
def unitWriter (r : Record) (leaf : Word) : Writer :=
  { asid := r.asid, log := r.log, leaf := leaf, kind := 3, strand := false, ref := none }

/-- The granules that bytes touch. -/
def touchedGranules (pa n : Nat) : List Nat := if n = 0 then [] else span (pa / 16) ((pa + n - 1) / 16 + 1 - pa / 16)

/-! ### COPY (09 R299, R300) -/

def copyOfDesc (b : List Byte) : CopyJob :=
  let w := dwAt b 16
  { word := w, src := dwAt b 0, dst := dwAt b 8, sform := fld w 63 61, dform := fld w 60 58, fill := bitAt w 57, pub := bitAt w 55,
    bcben := bitAt w 54, bcb := fld w 53 50, ring := fld w 49 46, len := fld w 20 0, landed := 0, sent := 0, started := false,
    resume := 0 }

/-- PRIVILEGE and BOUND of a form that is not translated, on its first and last byte (09 R300). -/
def State.copyRange (s : State) (c : CoreId) (st : Strand) (form : Form) (base : Word) (len kind : Nat) : Option FaultInfo :=
  if Form.isVa form || len = 0 then none
  else
    [(0 : Int), (len : Int) - 1].findSome? (fun off =>
      match s.resolve (placeCtx c st) st form base off kind (memberInfo 3 4 0) with
      | .fault f _ => if f.kind = 0x02 || f.kind = 0x06 then some f else none
      | _ => none)

/-- Every destination granule that MARKEMPTY marks resolves, or the first that does not (09 R300). -/
def State.markTargets : Nat → State → CoreId → Strand → Form → Word → Nat → Nat → Tr
  | 0, s, _, _, _, _, _, _ => .ok 0 0 s
  | f + 1, s, c, st, form, base, off, len =>
    if off ≥ len then .ok 0 0 s
    else match s.resolve (placeCtx c st) st form base off kWrite (memberInfo 3 4 0) with
      | .ok _ _ s => State.markTargets f s c st form base (off + (16 - (base.toNat + off) % 16)) len
      | x => x

/-- MARKEMPTY: the strand resolves the whole destination before any marking; then each turn marks one granule at its home, acknowledged;
then COPY goes on with `k` (09 R300). Host memory and control space have no full-empty bits. -/
def State.markNext (s : State) (c : CoreId) (n : Nat) (st : Strand) (form : Form) (base : Word) (len : Nat) (k : State → State) :
    State :=
  match st.bulk with
  | none =>
    match State.markTargets (len / 16 + 2) s c st form base 0 len with
    | .wait s => s.block c n st .mem
    | .fault f s => s.takeFault c n st f
    | .ok _ _ s => s.block c n { st with bulk := some { img := [], len := len, pos := 0 } } .mem
  | some b =>
    if b.pos ≥ len then k s
    else match s.resolve (placeCtx c st) st form base b.pos kWrite (memberInfo 3 4 0) with
      | .wait s => s.block c n st .mem
      | .fault f s => s.takeFault c n st f
      | .ok pa leaf s =>
        let z := 16 - (base.toNat + b.pos) % 16
        let done : Strand := { st with bulk := some { b with pos := b.pos + z } }
        let va := base + wd b.pos
        let r := granuleReq pa va leaf (s.shiftAt (placeCtx c st) va) (.mark z)
        if isHost pa || inControl (offOf pa) then s.block c n done .mem
        else if homeOf pa = c then
          match s.serve c r (strandWriter c n st leaf) with
          | some (_, s) => s.block c n done .mem
          | none => s.block c n st .mem
        else s.sendRequest c n st (homeOf pa) .mem r

/-- A handle is written with its HANDLE bit; a port takes the value alone (01 R32; 09 R294, R300). -/
def State.giveHandle (s : State) (c : CoreId) (n : Nat) (st : Strand) (d : Reg) (h : Word) : State :=
  let st := st.setP3 true
  if st.isPort d then s.writeBack c n st (some d) h
  else s.putStrand c n ((st.setG d h).setPend d .handle).finish
/-- A refused request: an invalid handle without a pending bit (09 R300). -/
def State.giveBad (s : State) (c : CoreId) (n : Nat) (st : Strand) (d : Reg) (reason : Nat) : State :=
  s.writeBack c n (st.setP3 false) (some d) (badHandle reason)

/-- COPY once its descriptor is read (09 R300). -/
def State.copyIssue (s : State) (c : CoreId) (n : Nat) (st : Strand) (d : Reg) (b : List Byte) (commit : State → State) : State :=
  let j := copyOfDesc b
  let mark := bitAt (dwAt b 16) 56
  let rec' := recordOf c st false [dwAt b 24] (.copy j)
  if j.sform = 7 || j.dform = 7 then (commit s).giveBad c n st d 1
  else if j.len > 2 ^ 20 then (commit s).giveBad c n st d 2
  else match s.copyRange c st (formOf j.sform) j.src j.len kRead, s.copyRange c st (formOf j.dform) j.dst j.len kWrite with
    | some f, _ => s.takeFault c n st f
    | none, some f => s.takeFault c n st f
    | none, none =>
      let here := (s.core c).has 3
      if here && (s.core c).freeRecord.isNone then s.block c n st .msg
      else if !here && (s.proxyChain 3 5 c 0).isSome then s.takeFault c n st (fFeature 3 ((s.proxyChain 3 5 c 0).getD 0))
      else
        let go : State → State := fun s =>
          let s := commit s
          if !here then s.toProxy c n st 3 (.proxy d 3) (.proxyTask ⟨c, n, st.uid⟩ 1 rec')
          else match (s.core c).freeRecord with
            | none => s.block c n st .msg
            | some i => let r := s.takeRecord c i rec'; r.2.giveHandle c n st d r.1
        if mark then s.markNext c n st (formOf j.dform) j.dst j.len go else go s

def execCopy (o : OpDA) (s : State) : Out :=
  .next (s.issue o.g none [o.a] [o.a] (some o.d) (fun c n st v commit s =>
    let s := s.drainQueue c st
    if !s.quiet c st false then s.block c n st .mem
    else if (v0 v).toNat % 32 != 0 then s.takeFault c n st (fAlign (v0 v) 32)
    else match s.readVa c n st (v0 v) 32 (memberInfo 3 4 0) with
      | .wait s => s
      | .fault f s => s.takeFault c n st f
      | .ok b s => s.copyIssue c n st o.d b commit))

/-! ### The steps of a copy -/

/-- The bytes of the next chunk (09 R301). -/
def CopyJob.chunk (j : CopyJob) : Nat := min (j.len - j.sent) (64 - (j.dst.toNat + j.sent) % 64)

/-- COPY_CHUNK_SEND (09 R301): record o.n sends its next chunk once the last one has landed; a cancelled copy ends here. -/
def execCopyChunkSend (o : EvCoreN) (s : State) : Out :=
  .next (match s.record o.c o.n with
    | none => s
    | some r =>
      match r.job with
      | .matrix _ => s
      | .copy j =>
        if !r.running || s.unitHeld o.c r || j.sent != j.landed || j.landed ≥ j.len then s
        else if r.cancel then s.endRecord o.c o.n r .cancelled
        else match State.unitRead 4 s o.c r (formOf j.sform) j.src j.sent j.chunk with
          | .wait s => s
          | .fault f s => s.recordFault o.c o.n r f
          | .ok data s =>
            match s.unitResolve o.c r (formOf j.dform) j.dst j.sent kWrite with
            | .wait s => s
            | .fault f s => s.recordFault o.c o.n r f
            | .ok pa leaf s =>
              let away := isHost pa || (homeOf pa).w != o.c.w
              let s := if away then s.fray o.c r.asid r.lslot r.log else s
              if isHost pa then
                if s.hostDown pa then s.recordFault o.c o.n r (fAccess (wd pa) 0)
                else ({ s with mem := memWrite s.mem pa data }).setRecord o.c o.n
                  { r with job := .copy { j with sent := j.sent + j.chunk, landed := j.landed + j.chunk } }
              else
                (s.setRecord o.c o.n { r with job := .copy { j with sent := j.sent + j.chunk } }).send o.c (homeOf pa) false
                  (s.tagOf o.c r.lslot)
                  (.chunk o.n o.c pa data r.asid r.log (if j.bcben then some j.bcb else none) j.fill leaf))

/-- A chunk's bytes go to control registers by doublewords where they can, else byte by byte. -/
def State.ctlBytes : Nat → State → Nat → List Byte → Writer → State
  | 0, s, _, _, _ => s
  | f + 1, s, pa, b, w =>
    if b.isEmpty then s
    else
      let n := if pa % 8 = 0 && b.length ≥ 8 then 8 else 1
      State.ctlBytes f (s.ctlStore pa n (wd (ofLe (b.take n))) w) (pa + n) (b.drop n) w

/-- Bytes counted in a barrier, which saturates; a drop is counted when the owner differs (09 R304). -/
def State.bcbAdd (s : State) (c : CoreId) (i asid n : Nat) : State :=
  let b := tblGet { count := 0, asid := 0 } (s.core c).bcbs i
  if b.asid = asid then
    s.modCore c (fun k => { k with bcbs := tblSet k.bcbs i { b with count := min (b.count + n) (2 ^ 32 - 1) } })
  else s.countError c 0

/-- A chunk lands (09 R301): one event, with FILL's full-empty bits and the barrier. -/
def State.chunkLand (s : State) (c : CoreId) (pa : Nat) (data : List Byte) (asid : Nat) (log : Bool) (bcb : Option Nat)
    (fill : Bool) (leaf : Word) : State :=
  let w : Writer := { asid := asid, log := log, leaf := leaf, kind := 3, strand := false, ref := none }
  let s := if inControl (offOf pa) then State.ctlBytes data.length s pa data w
    else (s.put c [(pa, data)] (if fill then (touchedGranules pa data.length).map (fun g => (g, true)) else []) w).1
  (match bcb with
    | none => s
    | some i => s.bcbAdd c i asid data.length).perf c 0x0C 1

/-- A copy record of the core, running. -/
def State.runningCopy (s : State) (c : CoreId) (i : Nat) : Option (Record × CopyJob) :=
  match s.record c i with
  | none => none
  | some r =>
    match r.job with
    | .copy j => if r.running then some (r, j) else none
    | .matrix _ => none

/-- Every chunk of the record has landed so far. -/
def State.chunkAcked (s : State) (c : CoreId) (i : Nat) : State :=
  match s.runningCopy c i with
  | none => s
  | some (r, j) => s.setRecord c i { r with job := .copy { j with landed := j.sent } }

/-- COPY_CHUNK_REFUSED (09 R303): the copy waits at its remainder. -/
def State.chunkRefused (s : State) (c : CoreId) (i : Nat) : State :=
  match s.runningCopy c i with
  | none => s
  | some (r, j) =>
    if r.cancel then s.endRecord c i { r with job := .copy { j with sent := j.landed } } .cancelled
    else s.setRecord c i { r with state := .pending, job := .copy { j with sent := j.landed, resume := s.cycle + 65536 } }

/-- Copies in progress, and channels that work (09 R297). -/
def Core.copiesRunning (k : Core) : Nat := (k.records.filter (fun x => x.2.isCopy && x.2.running)).length
def Core.channels (k : Core) : Nat := k.cfg.mask / 8 % 2 + k.cfg.mask / 16 % 2

/-- A PENDING copy goes on when a channel is free (09 R296, R303); without one it waits as though its time had come. -/
def State.copyResume (s : State) (c : CoreId) (i : Nat) : State :=
  match s.record c i with
  | none => s
  | some r =>
    match r.job with
    | .matrix _ => s
    | .copy j =>
      if !r.isPending then s
      else if (s.core c).copiesRunning < (s.core c).channels then s.setRecord c i { r with state := .running }
      else s.setRecord c i { r with job := .copy { j with resume := s.cycle } }

/-- COPY_PENDING_TIMEOUT (09 R296). -/
def execCopyPendingTimeout (o : EvCoreN) (s : State) : Out :=
  .next (match s.record o.c o.n with
    | none => s
    | some r =>
      match r.job with
      | .matrix _ => s
      | .copy j => if r.isPending && !s.unitHeld o.c r && j.resume ≤ s.cycle then s.copyResume o.c o.n else s)

/-- PUB: the oldest claimed slots of the ring on the core that holds DST's first byte (09 R302); none while an invalidation or a walk holds its
translation. -/
def State.copyPublish (s : State) (c : CoreId) (r : Record) (j : CopyJob) : Option State :=
  if !j.pub || j.len = 0 then some s
  else match s.unitResolve c r (formOf j.dform) j.dst 0 kWrite with
    | .ok pa _ s =>
      let h := homeOf (s.lands pa)
      if isHost pa then some (s.countError c 1)
      else match s.ring h j.ring with
        | none => some (s.countError h 1)
        | some q =>
          if q.asid != r.asid then some (s.countError h 1)
          else
            let want := (j.len + q.size - 1) / q.size
            let s := if q.unready.length < want then s.countError h 1 else s
            some (s.ringReady h j.ring q (q.unready.take want) (unitWriter r 0))
    | .wait _ => none
    | .fault _ s => some (s.countError c 1)

/-- COPY_DONE (09 R302): every chunk is acknowledged. -/
def execCopyDone (o : EvCoreN) (s : State) : Out :=
  .next (match s.runningCopy o.c o.n with
    | none => s
    | some (r, j) =>
      if s.unitHeld o.c r || j.landed < j.len then s
      else match s.copyPublish o.c r j with
        | none => s
        | some s => s.endRecord o.c o.n r .done)

/-! ### Leaving WAITDEP, and FCANCEL -/

/-- The dependences of a record: cancelled, met, or open (09 R296; 10 R336). -/
inductive DepState where
  | failed | met | waiting
  deriving DecidableEq, Repr
def State.deps (s : State) (p : Nat) (l : List Word) : DepState :=
  let st := l.map (fun h => (s.boardState p h).1)
  if st.any (fun x => x = 3 || x = 4 || x = 6) then .failed
  else if st.all (fun x => x = 2 || x = 5) then .met
  else .waiting

/-- DEPENDENCE_RESOLVED (09 R296). -/
def execDependenceResolved (o : EvCoreN) (s : State) : Out :=
  .next (match s.record o.c o.n with
    | none => s
    | some r =>
      match r.state with
      | .waitdep =>
        (match s.deps (s.partOf o.c) r.deps with
        | .failed => s.endRecord o.c o.n r .cancelled
        | .met => (s.setRecord o.c o.n { r with state := .waitin }).modCore o.c Core.latch
        | .waiting => s)
      | _ => s)

/-- A cancel request at the core that owns the operation (05 R175; 09 R323). -/
def State.cancelRecord (s : State) (c : CoreId) (h : Word) : State :=
  match s.record c (hSlot h) with
  | none => s
  | some r =>
    if r.seq != hSeq h || hKind h != (if r.isCopy then 0 else 1) then s
    else match r.job with
      | .matrix _ => s.endRecord c (hSlot h) r .cancelled
      | .copy j =>
        if r.running && j.sent != j.landed then s.setRecord c (hSlot h) { r with cancel := true }
        else if r.running && j.landed ≥ j.len then s
        else s.endRecord c (hSlot h) r .cancelled

end Sys2Proof.Machine
end

