-- ==== Sys2Proof/Machine/Integer.lean ====
section
/-! DEFINITION. Integer instructions of pages 0 and 1 (04 R115 to R128): the values they compute and their meanings. -/
namespace Sys2Proof.Machine
open Sys2Proof

/-! ### Values -/

def aluShl (a : Word) (n : Nat) : Word := if n ≥ 64 then 0 else wd (a.toNat * 2 ^ n)
def aluShr (a : Word) (n : Nat) : Word := if n ≥ 64 then 0 else wd (a.toNat / 2 ^ n)
def aluSar (a : Word) (n : Nat) : Word := Word.ofExact (shrInt a.sval (if n ≥ 64 then 63 else n))
def aluMulhu (a b : Word) : Word := wd (a.toNat * b.toNat / 2 ^ 64)
def aluMin (a b : Word) : Word := if a.sval ≤ b.sval then a else b
def aluMax (a b : Word) : Word := if a.sval ≥ b.sval then a else b
def aluMinu (a b : Word) : Word := if a.toNat ≤ b.toNat then a else b
def aluMaxu (a b : Word) : Word := if a.toNat ≥ b.toNat then a else b
/-- The bytes of a size code (02 R53). -/
def sizeBytes : Size → Nat
  | .b => 1 | .h => 2 | .w => 4 | .d => 8
def aluLea (a b : Word) (z : Size) : Word := a + b * wd (sizeBytes z)
def aluMovhi (d : Word) (imm : Nat) : Word := setFld d 63 36 imm
/-- DIV and REM (04 R123): quotient toward zero; all ones and the dividend by zero. -/
def aluDiv (a b : Word) : Word := if b = 0 then wd (2 ^ 64 - 1) else Word.ofExact (Int.tdiv a.sval b.sval)
def aluRem (a b : Word) : Word := if b = 0 then a else Word.ofExact (Int.tmod a.sval b.sval)
def aluDivu (a b : Word) : Word := if b = 0 then wd (2 ^ 64 - 1) else wd (a.toNat / b.toNat)
def aluRemu (a b : Word) : Word := if b = 0 then a else wd (a.toNat % b.toNat)
def aluRotl (a b : Word) : Word :=
  let n := b.toNat % 64
  wd (a.toNat * 2 ^ n + a.toNat / 2 ^ (64 - n))
def aluRotr (a b : Word) : Word := aluRotl a (wd (64 - b.toNat % 64))
def aluPopc (a : Word) : Word := wd (popN 64 a.toNat)
def aluBrev (a : Word) : Word := wd (revN 64 a.toNat 0)
def aluCtz (a : Word) : Word := wd (ctzN 64 a.toNat)
def aluClz (a : Word) : Word := aluCtz (aluBrev a)
/-- The field of BFX and BFI (04 R126): length and position. -/
def bfPos (b : Word) : Nat := fld b 5 0
def bfLen (b : Word) : Nat := min (fld b 14 8) (64 - bfPos b)
def aluBfx (a b : Word) : Word :=
  let x := a.toNat / 2 ^ bfPos b % 2 ^ bfLen b
  if bfLen b = 0 then 0 else if bitAt b 15 then Word.ofExact (sextInt x (bfLen b)) else wd x
def aluBfi (d a b : Word) : Word := if bfLen b = 0 then d else setFld d (bfPos b + bfLen b - 1) (bfPos b) a.toNat
def aluBswap (a : Word) (z : Size) : Word := wd (ofLe (leBytes (sizeBytes z) a.toNat).reverse)
def aluSext (a : Word) (z : Size) : Word := sext a (8 * (sizeBytes z))

/-- The predicate rule of the compares (04 R118). -/
def cmpPut (st : Strand) (p : Fin 4) (conj t : Bool) : Strand := st.setP p (if conj then st.pred p && t else t)

/-! ### Operand shapes -/

def aluDAB (f : Word → Word → Word) (o : OpDAB) (s : State) : Out :=
  .next (s.regOp o.g [o.a, o.b] (some o.d) (fun st v => .value st (f (v0 v) (v1 v))))
def aluDA (f : Word → Word) (o : OpDA) (s : State) : Out :=
  .next (s.regOp o.g [o.a] (some o.d) (fun st v => .value st (f (v0 v))))
def cmpAB (f : Word → Word → Bool) (o : OpCmp) (s : State) : Out :=
  .next (s.regOp o.g [o.a, o.b] none (fun st v => .done (cmpPut st o.p o.conj (f (v0 v) (v1 v))) none Flags.none 0))
def cmpAI (f : Word → Word → Bool) (o : OpCmpI) (s : State) : Out :=
  .next (s.regOp o.g [o.a] none (fun st v =>
    .done (cmpPut st o.p o.conj (f (v0 v) (Word.ofExact o.imm))) none Flags.none 0))
def aluDAN (f : Word → Nat → Word) (o : OpDAN) (s : State) : Out :=
  .next (s.regOp o.g [o.a] (some o.d) (fun st v => .value st (f (v0 v) o.n)))

/-! ### Meanings -/

def execAdd (o : OpDAB) (s : State) : Out := aluDAB (fun a b => a + b) o s
def execSub (o : OpDAB) (s : State) : Out := aluDAB (fun a b => a - b) o s
def execAnd (o : OpDAB) (s : State) : Out := aluDAB (fun a b => a &&& b) o s
def execOr (o : OpDAB) (s : State) : Out := aluDAB (fun a b => a ||| b) o s
def execXor (o : OpDAB) (s : State) : Out := aluDAB (fun a b => a ^^^ b) o s
def execShl (o : OpDAB) (s : State) : Out := aluDAB (fun a b => aluShl a b.toNat) o s
def execShr (o : OpDAB) (s : State) : Out := aluDAB (fun a b => aluShr a b.toNat) o s
def execSar (o : OpDAB) (s : State) : Out := aluDAB (fun a b => aluSar a b.toNat) o s
def execMul (o : OpDAB) (s : State) : Out := aluDAB (fun a b => a * b) o s
def execMulhu (o : OpDAB) (s : State) : Out := aluDAB aluMulhu o s
def execMin (o : OpDAB) (s : State) : Out := aluDAB aluMin o s
def execMax (o : OpDAB) (s : State) : Out := aluDAB aluMax o s
/-- MOV copies a HANDLE-pending source with its bit (01 R33; 04 R115). -/
def execMov (o : OpDA) (s : State) : Out :=
  .next (s.issue o.g none [o.a] [] (some o.d) (fun c n st v commit s =>
    let keep := st.isHandle o.a && !st.isPort o.d
    let s := (commit s)
    if keep then s.complete c n ((st.setG o.d (v0 v)).setPend o.d .handle) else s.writeBack c n st (some o.d) (v0 v)))
def execNot (o : OpDA) (s : State) : Out := aluDA (fun a => ~~~a) o s
def execNeg (o : OpDA) (s : State) : Out := aluDA (fun a => 0 - a) o s
def execLea (o : OpDABS) (s : State) : Out :=
  .next (s.regOp o.g [o.a, o.b] (some o.d) (fun st v => .value st (aluLea (v0 v) (v1 v) o.size)))
def execCmpeq (o : OpCmp) (s : State) : Out := cmpAB (fun a b => a = b) o s
def execCmpne (o : OpCmp) (s : State) : Out := cmpAB (fun a b => a != b) o s
def execCmplt (o : OpCmp) (s : State) : Out := cmpAB (fun a b => a.sval < b.sval) o s
def execCmpltu (o : OpCmp) (s : State) : Out := cmpAB (fun a b => a.toNat < b.toNat) o s
def execAddi (o : OpDAI) (s : State) : Out :=
  .next (s.regOp o.g [o.a] (some o.d) (fun st v => .value st (v0 v + Word.ofExact o.imm)))
def execShli (o : OpDAN) (s : State) : Out := aluDAN aluShl o s
def execShri (o : OpDAN) (s : State) : Out := aluDAN aluShr o s
def execSari (o : OpDAN) (s : State) : Out := aluDAN aluSar o s
def execCmpeqi (o : OpCmpI) (s : State) : Out := cmpAI (fun a b => a = b) o s
def execCmplti (o : OpCmpI) (s : State) : Out := cmpAI (fun a b => a.sval < b.sval) o s
def execMovi (o : OpDI) (s : State) : Out :=
  .next (s.regOp o.g [] (some o.d) (fun st _ => .value st (Word.ofExact o.imm)))
/-- MOVHI reads g[d] (04 R122). -/
def execMovhi (o : OpDN) (s : State) : Out :=
  .next (s.regOp o.g [o.d] (some o.d) (fun st v => .value st (aluMovhi (v0 v) o.n)))
def execDiv (o : OpDAB) (s : State) : Out := aluDAB aluDiv o s
def execDivu (o : OpDAB) (s : State) : Out := aluDAB aluDivu o s
def execRem (o : OpDAB) (s : State) : Out := aluDAB aluRem o s
def execRemu (o : OpDAB) (s : State) : Out := aluDAB aluRemu o s
def execMinu (o : OpDAB) (s : State) : Out := aluDAB aluMinu o s
def execMaxu (o : OpDAB) (s : State) : Out := aluDAB aluMaxu o s
def execRotl (o : OpDAB) (s : State) : Out := aluDAB aluRotl o s
def execRotr (o : OpDAB) (s : State) : Out := aluDAB aluRotr o s
def execPopc (o : OpDA) (s : State) : Out := aluDA aluPopc o s
def execClz (o : OpDA) (s : State) : Out := aluDA aluClz o s
def execCtz (o : OpDA) (s : State) : Out := aluDA aluCtz o s
def execBrev (o : OpDA) (s : State) : Out := aluDA aluBrev o s
def execBfx (o : OpDAB) (s : State) : Out := aluDAB aluBfx o s
/-- BFI reads g[d] as a third source, after a and b (04 R127; log 16). -/
def execBfi (o : OpDAB) (s : State) : Out :=
  .next (s.regOp o.g [o.a, o.b, o.d] (some o.d) (fun st v => .value st (aluBfi (v2 v) (v0 v) (v1 v))))
def execBswap (o : OpDAS) (s : State) : Out :=
  .next (s.regOp o.g [o.a] (some o.d) (fun st v => .value st (aluBswap (v0 v) o.size)))
def execSext (o : OpDAS) (s : State) : Out :=
  .next (s.regOp o.g [o.a] (some o.d) (fun st v => .value st (aluSext (v0 v) o.size)))

end Sys2Proof.Machine
end

