-- ==== Sys2Proof/Machine/Float.lean ====
section
/-! DEFINITION. FP32 arithmetic, compares, conversions and the verdict-NaN instructions of page 1 (04 R129 to R138). -/
namespace Sys2Proof.Machine
open Sys2Proof

/-- The low n bits of a register (04 R113). -/
def lowN (n : Nat) (v : Word) : Nat := v.toNat % 2 ^ n
def low32 (v : Word) : Nat := lowN 32 v

/-- The first verdict NaN among FP32 operands, as VERDICT-OPERAND reports it (03 R103; 06 R187). -/
def vnFault : Nat → List Word → Option FaultInfo
  | _, [] => none
  | i, v :: t => if isVN .f32 (low32 v) then some (fVerdict i (low32 v)) else vnFault (i + 1) t

/-- An FP32 instruction: the verdict check, then a result written zero-extended with its flags (04 R111, R113, R114). -/
def State.fpOp (s : State) (g : Guard) (srcs : List Reg) (d : Reg) (f : Strand → List Word → Nat × Flags) : State :=
  s.regOp g srcs (some d) (fun st v =>
    match vnFault 0 v with
    | some x => .fault x
    | none => let r := f st v; .done st (some (wd r.1)) r.2 0)
def fpDAB (f : Rm → FVal → FVal → Nat × Flags) (o : OpDAB) (s : State) : Out :=
  .next (s.fpOp o.g [o.a, o.b] o.d (fun st v => f st.fcw.rm (decFp .f32 (low32 (v0 v))) (decFp .f32 (low32 (v1 v)))))
def fpMM (max : Bool) (o : OpDAB) (s : State) : Out :=
  .next (s.fpOp o.g [o.a, o.b] o.d (fun _ v => fpMinMax .f32 max (low32 (v0 v)) (low32 (v1 v))))
def fpDA (f : Strand → Nat → Nat × Flags) (o : OpDA) (s : State) : Out :=
  .next (s.fpOp o.g [o.a] o.d (fun st v => f st (low32 (v0 v))))
/-- FMA, FMS, FNMA, FNMS by the signs of the product and of the addend (04 R132). -/
def fpDABC (np nz : Bool) (o : OpDABC) (s : State) : Out :=
  .next (s.fpOp o.g [o.a, o.b, o.c] o.d (fun st v =>
    fpFma .f32 st.fcw.rm np nz (decFp .f32 (low32 (v0 v))) (decFp .f32 (low32 (v1 v))) (decFp .f32 (low32 (v2 v)))))
/-- An FP compare (04 R133). -/
def fpCmpOp (c : FCmp) (o : OpCmp) (s : State) : Out :=
  .next (s.regOp o.g [o.a, o.b] none (fun st v =>
    match vnFault 0 v with
    | some x => .fault x
    | none =>
      let r := fpCmp c (decFp .f32 (low32 (v0 v))) (decFp .f32 (low32 (v1 v)))
      .done (cmpPut st o.p o.conj r.1) none r.2 0))

def execFadd (o : OpDAB) (s : State) : Out := fpDAB (fpAdd .f32) o s
def execFsub (o : OpDAB) (s : State) : Out := fpDAB (fpSub .f32) o s
def execFmul (o : OpDAB) (s : State) : Out := fpDAB (fpMul .f32) o s
def execFdiv (o : OpDAB) (s : State) : Out := fpDAB (fpDiv .f32) o s
def execFmin (o : OpDAB) (s : State) : Out := fpMM false o s
def execFmax (o : OpDAB) (s : State) : Out := fpMM true o s
def execFsqrt (o : OpDA) (s : State) : Out := fpDA (fun st x => fpSqrt .f32 st.fcw.rm (decFp .f32 x)) o s
def execFabs (o : OpDA) (s : State) : Out := fpDA (fun _ x => fpSignOp .f32 false x) o s
def execFneg (o : OpDA) (s : State) : Out := fpDA (fun _ x => fpSignOp .f32 true x) o s
def execFma (o : OpDABC) (s : State) : Out := fpDABC false false o s
def execFms (o : OpDABC) (s : State) : Out := fpDABC false true o s
def execFnma (o : OpDABC) (s : State) : Out := fpDABC true false o s
def execFnms (o : OpDABC) (s : State) : Out := fpDABC true true o s
def execFcmpeq (o : OpCmp) (s : State) : Out := fpCmpOp .eq o s
def execFcmplt (o : OpCmp) (s : State) : Out := fpCmpOp .lt o s
def execFcmple (o : OpCmp) (s : State) : Out := fpCmpOp .le o s
def execFcmpun (o : OpCmp) (s : State) : Out := fpCmpOp .un o s
/-- FCLASS sets no flag (04 R134). -/
def execFclass (o : OpDA) (s : State) : Out := fpDA (fun _ x => (2 ^ fpClass .f32 (decFp .f32 x), Flags.none)) o s

/-! ### Conversions (04 R135) -/

def execCvtif (o : OpDA) (s : State) : Out :=
  .next (s.regOp o.g [o.a] (some o.d) (fun st v =>
    let r := cvtToFp .f32 st.fcw.rm st.fcw.sat (intVal (v0 v).sval)
    .done st (some (wd r.1)) r.2 0))
def execCvtfi (o : OpDA) (s : State) : Out :=
  .next (s.regOp o.g [o.a] (some o.d) (fun st v =>
    match vnFault 0 v with
    | some x => .fault x
    | none =>
      let r := cvtToInt 64 st.fcw.rm st.fcw.sat (decFp .f32 (low32 (v0 v)))
      .done st (some (Word.ofExact r.1)) r.2 0))
def execCvtfb (o : OpDA) (s : State) : Out := fpDA (fun st x => cvtF32Bf16 st.fcw.sat x) o s
/-- A BF16 verdict NaN is reported by its 16 bits (03 R102). -/
def execCvtbf (o : OpDA) (s : State) : Out :=
  .next (s.regOp o.g [o.a] (some o.d) (fun st v =>
    let x := lowN 16 (v0 v)
    if isVN .bf16 x then .fault (fVerdict 0 x)
    else
      let r := cvtToFp .f32 st.fcw.rm st.fcw.sat (decFp .bf16 x)
      .done st (some (wd r.1)) r.2 0))
/-- FP32 to a tapered format: each NaR is counted (04 R114). -/
def toTaper (n : Nat) (o : OpDA) (s : State) : Out :=
  .next (s.regOp o.g [o.a] (some o.d) (fun st v =>
    match vnFault 0 v with
    | some x => .fault x
    | none =>
      let r := taperRound n st.fcw.sat (decFp .f32 (low32 (v0 v)))
      .done st (some (wd r.1)) r.2 (b01 (r.1 = 2 ^ (n - 1)))))
/-- A tapered format to FP32 is exact; NaR gives the default NaN without a flag (03 R99). -/
def ofTaper (n : Nat) (o : OpDA) (s : State) : Out :=
  .next (s.regOp o.g [o.a] (some o.d) (fun st v =>
    .value st (wd (cvtToFp .f32 st.fcw.rm false (decTaper n (lowN n (v0 v)))).1)))
def execCvtf8 (o : OpDA) (s : State) : Out := toTaper 8 o s
def execCvt8f (o : OpDA) (s : State) : Out := ofTaper 8 o s
def execCvtf6 (o : OpDA) (s : State) : Out := toTaper 6 o s
def execCvt6f (o : OpDA) (s : State) : Out := ofTaper 6 o s

/-! ### Verdict NaNs (04 R136 to R138) -/

def execVntest (o : OpCmpA) (s : State) : Out :=
  .next (s.regOp o.g [o.a] none (fun st v =>
    .done (cmpPut st o.p o.conj (isVN .f32 (low32 (v0 v)))) none Flags.none 0))
def execVnrep (o : OpDAB) (s : State) : Out := aluDAB (fun a b => if isVN .f32 (low32 a) then b else a) o s
def vnInfo (a : Word) : Word :=
  if isVN .f32 (low32 a) then wd (2 ^ 22 + fld a 31 31 * 2 ^ 21 + fld a 20 0) else 0
def execVninfo (o : OpDA) (s : State) : Out := aluDA vnInfo o s

end Sys2Proof.Machine
end

