-- ==== Sys2Proof/Machine/Vector.lean ====
section
/-! DEFINITION. The vector unit: contexts and their binding, barrel queues and the arbiter, element-wise instructions, reductions and
context control (08 R241 to R262, R268 to R271). Members that hold the strand advance with the grants of their chunks. -/
namespace Sys2Proof.Machine
open Sys2Proof

/-! ### Elements (08 R244, R245) -/

def Elem.bits' : Elem → Nat
  | .i32 => 32 | .f32 => 32 | .bf16 => 16 | .t8 => 8 | .t6 => 6 | .i8 => 8
/-- Width in memory of the types that VLD and its kin accept. -/
def elemBytes : Elem → Nat
  | .i32 => 4 | .f32 => 4 | .bf16 => 2 | _ => 1
def elemFmt : Elem → Option Fmt
  | .f32 => some .f32 | .bf16 => some .bf16 | _ => none
/-- BF16 rounds RNE whatever FCW.RM holds (08 R257). -/
def elemRm (t : Elem) (rm : Rm) : Rm := match t with | .bf16 => .rne | _ => rm

/-- The container of element j of v register r. -/
def VecCtx.cell (x : VecCtx) (r : Reg) (j : Nat) : Nat := tblGet 0 x.v (256 * r.val + j)
/-- The same read as an element of a type: the bits above its width are ignored. -/
def VecCtx.elem (x : VecCtx) (t : Elem) (r : Reg) (j : Nat) : Nat := x.cell r j % 2 ^ Elem.bits' t
/-- Elements at 0 are not listed. -/
def VecCtx.put (x : VecCtx) (r : Reg) (j v : Nat) : VecCtx :=
  { x with v := if v = 0 then x.v.filter (fun e => e.1 != 256 * r.val + j) else tblSet x.v (256 * r.val + j) v }
def VecCtx.puts (x : VecCtx) (r : Reg) : List (Nat × Nat) → VecCtx
  | [] => x
  | (j, v) :: t => (x.put r j v).puts r t
def VecCtx.mask (x : VecCtx) (k : Fin 4) (j : Nat) : Bool := (x.m[k]).toNat / 2 ^ j % 2 = 1
def VecCtx.isActive (x : VecCtx) (m : Option (Fin 4)) (j : Nat) : Bool :=
  j < min x.vl 256 && (match m with | none => true | some k => x.mask k j)
/-- The active elements, ascending. -/
def VecCtx.act (x : VecCtx) (m : Option (Fin 4)) : List Nat := (span 0 256).filter (x.isActive m)

/-- A context at its reset values (08 R242). -/
def VecCtx.fresh (uid : Nat) : VecCtx :=
  { owner := uid, v := [], m := Vector.replicate 4 (BitVec.allOnes 256), vl := 256, ty := .f32, blen := 32, vdm := 0, vdmpc := 0 }

def State.setVctx (s : State) (c : CoreId) (i : Nat) (x : VecCtx) : State :=
  s.modCore c (fun k => { k with vctx := tblSet k.vctx i x })

/-! ### Binding (08 R247) and the steps common to page 2 (08 R255) -/

/-- A page 2 instruction on a core without VEC moves to the proxy first (06 R205, R206). Where the chain of proxies fails, the fault is taken on the
issuing core without a move, with the hops that the chain would make (DESIGN CHOICE, log 61: the rule does not say which core faults). -/
def State.vecHome (s : State) (c : CoreId) (n : Nat) (st : Strand) (k : State) : State :=
  if (s.core c).has 1 then k
  else if st.stat.qbound then s.takeFault c n st (fFeature 1 0)
  else match s.proxyChain 1 5 c 0, s.nextProxy c 1 0 with
    | none, some d => s.putStrand c n { st with run := .departing d none }
    | some hops, _ => s.takeFault c n st (fFeature 1 hops)
    | _, none => s.takeFault c n st (fFeature 1 0)

/-- The context of the strand, bound when it has none (08 R247). -/
def State.vecBind (s : State) (c : CoreId) (n : Nat) (st : Strand) (k : Strand → Nat → VecCtx → State → State) : State :=
  match st.vctx with
  | some i => k st i (tblGet (VecCtx.fresh st.uid) (s.core c).vctx i) s
  | none =>
    match (span 0 8).find? (fun i => (List.lookup i (s.core c).vctx).isNone) with
    | none => s.block c n st .msg
    | some i =>
      let st' : Strand := { st with vctx := some i, stat := { st.stat with vbound := true } }
      k st' i (VecCtx.fresh st.uid) (s.setVctx c i (VecCtx.fresh st.uid))

/-- Steps 2 to 4: the guard, the type check, the proxy and the binding. An explicit type has passed the decoder's check
(02 R61; log 11). -/
def State.vIssue (s : State) (g : Guard) (t : Option Elem) (ok : List Elem)
    (k : CoreId → Nat → Strand → Nat → VecCtx → Elem → State → State) : State :=
  match s.curStrand with
  | none => s
  | some (c, n, st) =>
    if !guardHolds st g then s.putStrand c n st.finish
    else
      let ty := match t, st.vctx with
        | some e, _ => e
        | none, none => .f32
        | none, some i => (tblGet (VecCtx.fresh st.uid) (s.core c).vctx i).ty
      if t.isNone && !ok.contains ty then s.takeFault c n st (fIllegal 9 st.pc (chainInfo st.chain))
      else s.vecHome c n st (s.vecBind c n st (fun st i x s => k c n st i x ty s))

/-! ### Queues (08 R249, R250) -/

def Core.vq (k : Core) (b : Nat) : List VQEntry := k.vqueue.toList.getD b []
def Core.setVq (k : Core) (b : Nat) (q : List VQEntry) : Core := { k with vqueue := k.vqueue.setIfInBounds b q }
/-- An earlier instruction of the strand failed its verdict check, not yet reported (08 R253). -/
def Core.vPoisoned (k : Core) (uid : Nat) : Bool := k.vqueue.toList.any (fun q => q.any (fun e => e.uid = uid && e.poison.isSome))
/-- Chunks of n elements. -/
def chunksOf (n : Nat) : Nat := max 1 ((n + 15) / 16)

def State.vEnqueue (s : State) (c : CoreId) (n : Nat) (e : VQEntry) : State :=
  s.modCore c (fun k => k.setVq (n / 16) (k.vq (n / 16) ++ [e]))

/-- What a register-only instruction makes: the new context, its flags, the NaRs it wrote, the operand that failed its check. -/
structure VRes where
  ctx : VecCtx
  fl : Flags
  nars : Nat
  poison : Option (Nat × Nat)

/-- A register-only instruction: it enters the queue and the strand goes on; the flags wait for its completion (08 R249, R253;
log 10). -/
def State.vOp (s : State) (g : Guard) (t : Option Elem) (ok : List Elem) (srcs : List Reg)
    (f : Strand → List Word → VecCtx → Elem → VRes) : State :=
  s.vIssue g t ok (fun c n st i x ty s =>
    match s.gate c n st srcs srcs none with
    | .stop s => s
    | .go st vals commit =>
      if ((s.core c).vq (n / 16)).length ≥ 8 then s.block c n st .mem
      else
        let dead := (s.core c).vPoisoned st.uid
        let r := f st vals x ty
        let bad := dead || r.poison.isSome
        let e : VQEntry :=
          { slot := n, uid := st.uid, pc := st.pc, chunks := chunksOf x.vl, granted := 0,
            flags := if bad then Flags.none else r.fl, nars := if bad then 0 else r.nars,
            poison := if dead then none else r.poison, holding := false }
        let s := (commit s).vEnqueue c n e
        let s := if bad then s else s.setVctx c i r.ctx
        s.complete c n st)

/-- The instruction in front of a queue that takes chunks: every chunk of those before it is assigned, and none of them holds
its place (08 R250). -/
def vqHead : List VQEntry → Nat → Option (Nat × VQEntry)
  | [], _ => none
  | e :: t, i =>
    if e.granted < e.chunks then some (i, e)
    else if e.holding then none
    else vqHead t (i + 1)

/-- The strand's holding instruction stands at the front, with this many chunks assigned. -/
def holdGrants (uid : Nat) : List VQEntry → Nat
  | [] => 0
  | e :: t =>
    if e.uid = uid && e.holding then e.granted
    else if e.holding || e.granted < e.chunks then 0
    else holdGrants uid t

/-- A holding instruction leaves its queue. -/
def State.vLeave (s : State) (c : CoreId) (n : Nat) (uid : Nat) : State :=
  s.modCore c (fun k => k.setVq (n / 16) ((k.vq (n / 16)).filter (fun e => !(e.uid = uid && e.holding))))

/-- A holding instruction is complete: its place in the queue and PIX are cleared, and the result is written (06 R201; 08 R254). -/
def State.vDone (s : State) (c : CoreId) (n : Nat) (st : Strand) (dst : Option (Reg × Word)) (fl : Flags) (nars : Nat) : State :=
  let st' : Strand := { st.raise fl with hold := none, pix := none }
  let s := (s.vLeave c n st.uid).fpEvents c st.lslot fl nars
  match dst with
  | none => s.complete c n st'
  | some (d, v) => s.writeBack c n st' (some d) v
/-- A fault of a holding instruction's work is the vector unit's: SOURCE 3 (06 R188; log 30). -/
def State.vFault (s : State) (c : CoreId) (n : Nat) (st : Strand) (f : FaultInfo) : State :=
  (s.vLeave c n st.uid).takeFaultAt c n { st with hold := none } st.pc 3 f

/-- A holding instruction (08 R249, R250, R254): it enters the queue with the values of its general registers, and each later
turn of the strand does what its assigned chunks allow. -/
def State.vHold (s : State) (g : Guard) (t : Option Elem) (ok : List Elem) (srcs : List Reg) (dst : Option Reg)
    (check : VecCtx → Elem → Option (Nat × Nat)) (start : Strand → VecCtx → Elem → List Word → VProg × VecCtx)
    (work : CoreId → Nat → Strand → Nat → VecCtx → Elem → VProg → Nat → State → State) : State :=
  s.vIssue g t ok (fun c n st i x ty s =>
    match st.hold with
    | some h =>
      let got := holdGrants st.uid ((s.core c).vq (n / 16))
      if got = 0 then s.block c n st .mem else work c n st i x ty h got s
    | none =>
      match s.gate c n st srcs srcs dst with
      | .stop s => s
      | .go st vals commit =>
        if ((s.core c).vq (n / 16)).length ≥ 8 then s.block c n st .mem
        else
          let e : VQEntry :=
            { slot := n, uid := st.uid, pc := st.pc, chunks := chunksOf x.vl, granted := 0, flags := Flags.none, nars := 0,
              poison := if (s.core c).vPoisoned st.uid then none else check x ty, holding := true }
          let r := start st x ty vals
          (((commit s).vEnqueue c n e).setVctx c i r.2).block c n { st with hold := some r.1 } .mem)

/-! ### Arbitration (08 R251 to R253) -/

/-- The weights of VSHARE; 0 acts as 1. -/
def vWeight (v : Word) (b : Nat) : Nat := max 1 (if b = 0 then fld v 3 0 else fld v 7 4)

/-- The barrel that takes the next free lane group, with the share counts after it. -/
def Core.vArbiter (k : Core) : Option Nat × Vector Int 2 :=
  match vqHead (k.vq 0) 0, vqHead (k.vq 1) 0 with
  | none, none => (none, k.vcount)
  | some _, none => (some 0, k.vcount)
  | none, some _ => (some 1, k.vcount)
  | some _, some _ =>
    let w0 : Int := vWeight k.vshare 0
    let w1 : Int := vWeight k.vshare 1
    let c0 := k.vcount[0] + w0
    let c1 := k.vcount[1] + w1
    if c1 > c0 then (some 1, #v[c0, c1 - (w0 + w1)]) else (some 0, #v[c0 - (w0 + w1), c1])

/-- The failed verdict check of entry i of a queue ends the launch at the instruction's PC; it and no later vector instruction of the strand
takes effect, and earlier ones still complete (08 R253). -/
def State.vVerdict (s : State) (c : CoreId) (b i : Nat) (e : VQEntry) (pos bits : Nat) : State :=
  let s := s.modCore c (fun k => k.setVq b ((k.vq b).take i ++ ((k.vq b).drop i).filter (fun x => x.uid != e.uid)))
  match s.strandAt c e.slot with
  | none => s
  | some st =>
    if st.uid = e.uid && st.run != .faulted then
      s.takeFaultAt c e.slot { st with hold := none } e.pc 3 (fVerdict pos bits)
    else s

/-- One lane group is granted. -/
def State.vGrantOne (s : State) (c : CoreId) : State :=
  let k := s.core c
  let a := k.vArbiter
  match a.1 with
  | none => s
  | some b =>
    match vqHead (k.vq b) 0 with
    | none => s
    | some (i, e) =>
      let s := (s.setCore c ({ k with vcount := a.2 }.setVq b (setAt (k.vq b) i { e with granted := e.granted + 1 }))).perf c 0x0A 1
      match e.poison with
      | none => s
      | some (p, v) => s.vVerdict c b i e p v

/-- VECTOR_GRANT (08 R250, R251): the four lane groups of one core cycle. -/
def execVectorGrant (o : EvCore) (s : State) : Out :=
  .next ((((s.vGrantOne o.c).vGrantOne o.c).vGrantOne o.c).vGrantOne o.c)

/-- VECTOR_COMPLETE (08 R253): the oldest instruction of barrel o.n whose chunks are all assigned completes; its flags reach FCW
and the numeric event counters. -/
def execVectorComplete (o : EvCoreN) (s : State) : Out :=
  .next (
    let k := s.core o.c
    match k.vq o.n with
    | [] => s
    | e :: q =>
      if e.holding || e.granted < e.chunks then s
      else
        let s := s.setCore o.c (k.setVq o.n q)
        match s.strandAt o.c e.slot with
        | none => s
        | some st =>
          if st.uid = e.uid then (s.putStrand o.c e.slot (st.raise e.flags)).fpEvents o.c st.lslot e.flags e.nars else s)

/-! ### Verdict checks (03 R103; 08 R255) -/

/-- The first verdict NaN among active elements read as F32 or BF16, with its operand position. -/
def vnScan (t : Elem) (pos : Nat) (xs : List Nat) : Option (Nat × Nat) :=
  match elemFmt t with
  | none => none
  | some f => (xs.find? (fun x => isVN f x)).map (fun x => (pos, x))
def VecCtx.vn (x : VecCtx) (m : Option (Fin 4)) (t : Elem) (pos : Nat) (r : Reg) : Option (Nat × Nat) :=
  vnScan t pos ((x.act m).map (x.elem t r))

/-! ### Element-wise arithmetic (08 R256, R257) -/

/-- An exact integer wrapped to w bits. -/
def wrapN (w : Nat) (i : Int) : Nat := (i % (2 ^ w : Nat)).toNat

/-- Elements j of a register become f j, with the flags of all. -/
def VecCtx.mapTo (x : VecCtx) (d : Reg) (js : List Nat) (f : Nat → Nat × Flags) : VecCtx × Flags :=
  let rs := js.map (fun j => (j, f j))
  (x.puts d (rs.map (fun r => (r.1, r.2.1))), rs.foldl (fun a r => a.or r.2.2) Flags.none)

/-- A two-operand member by its type: integers wrapped, or F32 and BF16 values. -/
structure VBin where
  int : Nat → Int → Int → Int
  fp : Fmt → Rm → Nat → Nat → Nat × Flags

def vBin (o : VBin) (t : Elem) (rm : Rm) (a b : Nat) : Nat × Flags :=
  match elemFmt t with
  | some f => o.fp f (elemRm t rm) a b
  | none =>
    let w := Elem.bits' t
    (wrapN w (o.int w (sextInt a w) (sextInt b w)), Flags.none)

def onVals (f : Fmt → Rm → FVal → FVal → Nat × Flags) : Fmt → Rm → Nat → Nat → Nat × Flags :=
  fun m rm a b => f m rm (decFp m a) (decFp m b)
/-- Truncated division with the corner values of 04 R123. -/
def intDiv (w : Nat) (a b : Int) : Int := if b = 0 then -1 else if b = -1 && a = -(2 ^ (w - 1) : Nat) then a else Int.tdiv a b

def vbAdd : VBin := { int := fun _ a b => a + b, fp := onVals fpAdd }
def vbSub : VBin := { int := fun _ a b => a - b, fp := onVals fpSub }
def vbMul : VBin := { int := fun _ a b => a * b, fp := onVals fpMul }
def vbDiv : VBin := { int := intDiv, fp := onVals fpDiv }
def vbMin : VBin := { int := fun _ a b => min a b, fp := fun f _ => fpMinMax f false }
def vbMax : VBin := { int := fun _ a b => max a b, fp := fun f _ => fpMinMax f true }
def vbAbsd : VBin := { int := fun _ a b => (a - b).natAbs, fp := onVals (fun f rm => fpAbsDiff f rm false) }
def vbSqd : VBin := { int := fun _ a b => (a - b) * (a - b), fp := onVals (fun f rm => fpAbsDiff f rm true) }

/-- v[d][j] := x op y for active j. -/
def State.vBinOp (s : State) (o : OpVDAB) (ok : List Elem) (op : VBin) : State :=
  s.vOp o.g o.t ok [] (fun st _ x t =>
    let r := x.mapTo o.d (x.act o.m) (fun j => vBin op t st.fcw.rm (x.elem t o.a j) (x.elem t o.b j))
    { ctx := r.1, fl := r.2, nars := 0, poison := (x.vn o.m t 0 o.a).orElse (fun _ => x.vn o.m t 1 o.b) })

def execVadd (o : OpVDAB) (s : State) : Out := .next (s.vBinOp o typesArith vbAdd)
def execVsub (o : OpVDAB) (s : State) : Out := .next (s.vBinOp o typesArith vbSub)
def execVmul (o : OpVDAB) (s : State) : Out := .next (s.vBinOp o typesArith vbMul)
def execVdiv (o : OpVDAB) (s : State) : Out := .next (s.vBinOp o typesDiv vbDiv)
def execVmin (o : OpVDAB) (s : State) : Out := .next (s.vBinOp o typesArith vbMin)
def execVmax (o : OpVDAB) (s : State) : Out := .next (s.vBinOp o typesArith vbMax)
def execVabsd (o : OpVDAB) (s : State) : Out := .next (s.vBinOp o typesArith vbAbsd)
def execVsqd (o : OpVDAB) (s : State) : Out := .next (s.vBinOp o typesDiv vbSqd)

/-- Members that read their elements as bits of the type's width. -/
def State.vBitOp (s : State) (o : OpVDAB) (ok : List Elem) (f : Nat → Nat → Nat → Nat) : State :=
  s.vOp o.g o.t ok [] (fun _ _ x t =>
    { ctx := (x.mapTo o.d (x.act o.m) (fun j => (f (Elem.bits' t) (x.elem t o.a j) (x.elem t o.b j), Flags.none))).1,
      fl := Flags.none, nars := 0, poison := none })
def execVand (o : OpVDAB) (s : State) : Out := .next (s.vBitOp o typesAll (fun _ a b => a &&& b))
def execVor (o : OpVDAB) (s : State) : Out := .next (s.vBitOp o typesAll (fun _ a b => a ||| b))
def execVxor (o : OpVDAB) (s : State) : Out := .next (s.vBitOp o typesAll (fun _ a b => a ^^^ b))
def execVshl (o : OpVDAB) (s : State) : Out :=
  .next (s.vBitOp o typesShift (fun w a b => if b ≥ w then 0 else a * 2 ^ b % 2 ^ w))
def execVshr (o : OpVDAB) (s : State) : Out := .next (s.vBitOp o typesShift (fun w a b => if b ≥ w then 0 else a / 2 ^ b))
def execVsar (o : OpVDAB) (s : State) : Out :=
  .next (s.vBitOp o typesShift (fun w a b => wrapN w (shrInt (sextInt a w) (min b w))))

/-- VFMA and VFMS: x × y ± z with one rounding (08 R256). -/
def State.vFma (s : State) (o : OpVDABC) (nz : Bool) : State :=
  s.vOp o.g o.t typesFma [] (fun st _ x t =>
    let f := (elemFmt t).getD .f32
    let r := x.mapTo o.d (x.act o.m) (fun j =>
      fpFma f (elemRm t st.fcw.rm) false nz (decFp f (x.elem t o.a j)) (decFp f (x.elem t o.b j)) (decFp f (x.elem t o.c j)))
    { ctx := r.1, fl := r.2, nars := 0,
      poison := ((x.vn o.m t 0 o.a).orElse (fun _ => x.vn o.m t 1 o.b)).orElse (fun _ => x.vn o.m t 2 o.c) })
def execVfma (o : OpVDABC) (s : State) : Out := .next (s.vFma o false)
def execVfms (o : OpVDABC) (s : State) : Out := .next (s.vFma o true)

/-- VADDS, VMULS, VMAXS: the second operand is the low bits of g[b], read at issue (08 R244, R249). -/
def State.vScalarOp (s : State) (o : OpVDAB) (op : VBin) : State :=
  s.vOp o.g o.t typesArith [o.b] (fun st v x t =>
    let y := lowN (Elem.bits' t) (v0 v)
    let js := x.act o.m
    let r := x.mapTo o.d js (fun j => vBin op t st.fcw.rm (x.elem t o.a j) y)
    { ctx := r.1, fl := r.2, nars := 0,
      poison := (x.vn o.m t 0 o.a).orElse (fun _ => vnScan t 1 (js.map (fun _ => y))) })
def execVadds (o : OpVDAB) (s : State) : Out := .next (s.vScalarOp o vbAdd)
def execVmuls (o : OpVDAB) (s : State) : Out := .next (s.vScalarOp o vbMul)
def execVmaxs (o : OpVDAB) (s : State) : Out := .next (s.vScalarOp o vbMax)

/-- VSPLAT (08 R256). -/
def execVsplat (o : OpVDA) (s : State) : Out :=
  .next (s.vOp o.g o.t typesAll [o.a] (fun _ v x t =>
    { ctx := (x.mapTo o.d (x.act o.m) (fun _ => (lowN (Elem.bits' t) (v0 v), Flags.none))).1, fl := Flags.none, nars := 0,
      poison := none }))

/-- Members of one v operand. -/
def State.vUnary (s : State) (o : OpVDA) (ok : List Elem) (interprets : Bool) (f : Elem → Nat → Nat × Flags) : State :=
  s.vOp o.g o.t ok [] (fun _ _ x t =>
    let r := x.mapTo o.d (x.act o.m) (fun j => f t (x.elem t o.a j))
    { ctx := r.1, fl := r.2, nars := 0, poison := if interprets then x.vn o.m t 0 o.a else none })
def vSign (negate : Bool) (t : Elem) (a : Nat) : Nat × Flags :=
  match elemFmt t with
  | some f => fpSignOp f negate a
  | none =>
    let w := Elem.bits' t
    let x := sextInt a w
    (wrapN w (if negate then -x else (x.natAbs : Int)), Flags.none)
def execVmov (o : OpVDA) (s : State) : Out := .next (s.vUnary o typesAll false (fun _ a => (a, Flags.none)))
def execVneg (o : OpVDA) (s : State) : Out := .next (s.vUnary o typesArith true (vSign true))
def execVabs (o : OpVDA) (s : State) : Out := .next (s.vUnary o typesArith true (vSign false))

/-! ### Compares and selection (08 R258, R259) -/

/-- Mask k with bit j replaced for each listed j. -/
def VecCtx.putMask (x : VecCtx) (k : Fin 4) : List (Nat × Bool) → VecCtx
  | [] => x
  | (j, b) :: t =>
    let old := x.m[k]
    let bit : BitVec 256 := BitVec.ofNat 256 (2 ^ j)
    ({ x with m := x.m.set k (if b then old ||| bit else old &&& ~~~bit) } : VecCtx).putMask k t

def vCmp (c : FCmp) (t : Elem) (a b : Nat) : Bool × Flags :=
  match elemFmt t with
  | some f => fpCmp c (decFp f a) (decFp f b)
  | none =>
    let x := sextInt a (Elem.bits' t)
    let y := sextInt b (Elem.bits' t)
    ((match c with | .eq => x = y | .ne => x != y | .lt => x < y | .le => x ≤ y | .un => false), Flags.none)
def State.vCmpOp (s : State) (o : OpVCmp) (c : FCmp) : State :=
  s.vOp o.g o.t typesArith [] (fun _ _ x t =>
    let rs := (x.act o.m).map (fun j => (j, vCmp c t (x.elem t o.a j) (x.elem t o.b j)))
    { ctx := x.putMask o.k (rs.map (fun r => (r.1, r.2.1 && (!o.conj || x.mask o.k r.1)))),
      fl := rs.foldl (fun a r => a.or r.2.2) Flags.none, nars := 0,
      poison := (x.vn o.m t 0 o.a).orElse (fun _ => x.vn o.m t 1 o.b) })
def execVcmpeq (o : OpVCmp) (s : State) : Out := .next (s.vCmpOp o .eq)
def execVcmpne (o : OpVCmp) (s : State) : Out := .next (s.vCmpOp o .ne)
def execVcmplt (o : OpVCmp) (s : State) : Out := .next (s.vCmpOp o .lt)
def execVcmple (o : OpVCmp) (s : State) : Out := .next (s.vCmpOp o .le)

/-- VSEL: the mask selects for every element below VL (08 R259). -/
def execVsel (o : OpVDAB) (s : State) : Out :=
  .next (s.vOp o.g o.t typesAll [] (fun _ _ x t =>
    { ctx := (x.mapTo o.d (x.act none) (fun j => (if x.isActive o.m j then x.elem t o.a j else x.elem t o.b j, Flags.none))).1,
      fl := Flags.none, nars := 0, poison := none }))
/-- VIOTA (08 R259). -/
def execViota (o : OpVD) (s : State) : Out :=
  .next (s.vOp o.g o.t typesShift [] (fun _ _ x t =>
    { ctx := (x.mapTo o.d (x.act o.m) (fun j => (j % 2 ^ Elem.bits' t, Flags.none))).1, fl := Flags.none, nars := 0,
      poison := none }))
/-- VCOMP (08 R259). -/
def execVcomp (o : OpVDA) (s : State) : Out :=
  .next (s.vOp o.g o.t typesAll [] (fun _ _ x t =>
    let l := (x.act o.m).map (x.elem t o.a)
    { ctx := x.puts o.d ((x.act none).map (fun j => (j, l.getD j 0))), fl := Flags.none, nars := 0, poison := none }))

/-! ### Conversions and scales (08 R260, R261) -/

/-- The value of an element. -/
def elemVal (t : Elem) (a : Nat) : FVal :=
  match t with
  | .f32 => decFp .f32 a
  | .bf16 => decFp .bf16 a
  | .t8 => decTaper 8 a
  | .t6 => decTaper 6 a
  | _ => intVal (sextInt a (Elem.bits' t))
/-- An element converted from type `f` to type `t`: value, flags, and whether it became NaR (03 R97 to R99). -/
def vConvert (f t : Elem) (rm : Rm) (sat : Bool) (a : Nat) : Nat × Flags × Bool :=
  match t with
  | .f32 => let r := cvtToFp .f32 rm sat (elemVal f a); (r.1, r.2, false)
  | .bf16 =>
    let r := if f = .f32 then cvtF32Bf16 sat a else cvtToFp .bf16 .rne sat (elemVal f a)
    (r.1, r.2, false)
  | .t8 => let r := taperRound 8 sat (elemVal f a); (r.1, r.2, r.1 = 128)
  | .t6 => let r := taperRound 6 sat (elemVal f a); (r.1, r.2, r.1 = 32)
  | _ => let r := cvtToInt (Elem.bits' t) rm sat (elemVal f a); (wrapN (Elem.bits' t) r.1, r.2, false)
/-- VCVT converts from the explicit type to VFMT.TYPE (08 R260); without an explicit type it is ILLEGAL. -/
def execVcvt (o : OpVDA) (s : State) : Out :=
  .next (s.vOp o.g o.t [] [] (fun st _ x t =>
    let rs := (x.act o.m).map (fun j => (j, vConvert t x.ty st.fcw.rm st.fcw.sat (x.elem t o.a j)))
    { ctx := x.puts o.d (rs.map (fun r => (r.1, r.2.1))), fl := rs.foldl (fun a r => a.or r.2.2.1) Flags.none,
      nars := (rs.filter (fun r => r.2.2.2)).length, poison := x.vn o.m t 0 o.a }))

/-- The E8 scale of a block of F32 elements (08 R261). -/
def blockScale (xs : List Nat) : Nat :=
  let vs := xs.map (decFp .f32)
  if vs.any (fun v => v.isNaN || v.isInf) then 0xFF
  else
    match vs.filterMap (fun v => match v with | .fin _ m e => some ((Nat.log2 m : Int) + e) | _ => none) with
    | [] => 127
    | l :: t => (min (max (127 + t.foldl max l) 0) 254).toNat
/-- The scales of the blocks that hold an element below VL. -/
def VecCtx.scales (x : VecCtx) (m : Option (Fin 4)) (r : Reg) : List Nat :=
  (span 0 ((x.vl + x.blen - 1) / x.blen)).map (fun b =>
    blockScale (((span (b * x.blen) x.blen).filter (x.isActive m)).map (x.elem .f32 r)))
/-- VSCALE (08 R261). -/
def execVscale (o : OpVDA) (s : State) : Out :=
  .next (s.vOp o.g o.t typesTaper [] (fun _ _ x _ =>
    let l := x.scales o.m o.a
    { ctx := x.puts o.d ((x.act none).map (fun j => (j, l.getD j 0))), fl := Flags.none, nars := 0,
      poison := x.vn o.m .f32 0 o.a }))

/-! ### Reductions (08 R262) -/

/-- The general register takes the result as its type extends (08 R262). -/
def redWord (t : Elem) (v : Nat) : Word :=
  match t with
  | .i32 => Word.ofExact (sextInt v 32)
  | .i8 => Word.ofExact (sextInt v 8)
  | _ => wd v
/-- The largest or smallest of the elements, with the IV of a signalling NaN. -/
def vExtreme (mx : Bool) (t : Elem) (xs : List Nat) : Nat × Flags :=
  match elemFmt t with
  | some f =>
    let iv := xs.any (fun x => (decFp f x).isSNaN)
    match xs.filter (fun x => !(decFp f x).isNaN) with
    | [] => nanRes f iv
    | a :: l => (l.foldl (fun m x => (fpMinMax f mx m x).1) a, { Flags.none with iv := iv })
  | none =>
    let w := Elem.bits' t
    match xs with
    | [] => (if mx then 2 ^ (w - 1) else 2 ^ (w - 1) - 1, Flags.none)
    | a :: l =>
      (l.foldl (fun m x => if (if mx then sextInt m w < sextInt x w else sextInt x w < sextInt m w) then x else m) a, Flags.none)
def vSum (t : Elem) (x : VecCtx) (m : Option (Fin 4)) (r : Reg) : Nat × Flags :=
  match elemFmt t with
  | some f => treeSum f ((span 0 x.vl).map (fun j => if x.isActive m j then some (x.elem t r j) else none))
  | none => (wrapN 32 (((x.act m).map (fun j => sextInt (x.elem t r j) 32)).sum), Flags.none)

/-- A holding member that returns a value once all its chunks are assigned. -/
def State.vReduce (s : State) (o : OpVDA) (ok : List Elem) (interprets : Bool) (f : VecCtx → Elem → Word × Flags) : State :=
  s.vHold o.g o.t ok [] (some o.d) (fun x t => if interprets then x.vn o.m t 0 o.a else none)
    (fun _ x _ _ => ({ unit := 0, pos := 0, rerun := false, vals := [], buf := [], fl := Flags.none }, x))
    (fun c n st _ x t _ got s =>
      if got < chunksOf x.vl then s.block c n st .mem
      else if st.isPort o.d && !s.portRoom c st then s.block c n st .msg
      else
        let r := f x t
        s.vDone c n st (some (o.d, r.1)) r.2 0)
def execVredsum (o : OpVDA) (s : State) : Out :=
  .next (s.vReduce o typesDiv true (fun x t => let r := vSum t x o.m o.a; (redWord t r.1, r.2)))
def execVredmax (o : OpVDA) (s : State) : Out :=
  .next (s.vReduce o typesArith true (fun x t => let r := vExtreme true t ((x.act o.m).map (x.elem t o.a)); (redWord t r.1, r.2)))
def execVredmin (o : OpVDA) (s : State) : Out :=
  .next (s.vReduce o typesArith true (fun x t => let r := vExtreme false t ((x.act o.m).map (x.elem t o.a)); (redWord t r.1, r.2)))
/-- VREDARG: the lowest element that equals the VREDMAX result (08 R262). Equal is taken bitwise, so −0 does not match +0 (DESIGN CHOICE,
log 62). -/
def execVredarg (o : OpVDA) (s : State) : Out :=
  .next (s.vReduce o typesArith true (fun x t =>
    let xs := (x.act o.m).map (x.elem t o.a)
    let r := vExtreme true t xs
    let nan : Bool := match elemFmt t with | none => false | some f => xs.all (fun v => (decFp f v).isNaN)
    match (x.act o.m).find? (fun j => x.elem t o.a j = r.1) with
    | some j => (if nan then wd (2 ^ 64 - 1) else wd j, r.2)
    | none => (wd (2 ^ 64 - 1), r.2)))

/-! ### Verdict lanes and top-k (08 R268 to R270) -/

def execVnmask (o : OpVNMask) (s : State) : Out :=
  .next (s.vOp o.g o.t typesF32 [] (fun _ _ x t =>
    { ctx := x.putMask o.k ((x.act o.m).map (fun j => (j, isVN .f32 (x.elem t o.a j)))), fl := Flags.none, nars := 0,
      poison := none }))
def execVnrepv (o : OpVDAB) (s : State) : Out :=
  .next (s.vOp o.g o.t typesF32 [o.b] (fun _ v x t =>
    { ctx := (x.mapTo o.d (x.act o.m) (fun j =>
        (if isVN .f32 (x.elem t o.a j) then lowN 32 (v0 v) else x.elem t o.a j, Flags.none))).1,
      fl := Flags.none, nars := 0, poison := none }))

/-- One candidate enters a list of k (score, id) pairs in non-increasing order (08 R269). -/
def topkInsert : List (Nat × Nat) → Nat × Nat → List (Nat × Nat)
  | [], _ => []
  | e :: t, x =>
    if !(decFp .f32 e.1).isNaN && fpLtZ (decFp .f32 e.1) (decFp .f32 x.1) then x :: (e :: t).take t.length
    else e :: topkInsert t x
/-- The candidate beats the last of the list. -/
def topkTakes (l : List (Nat × Nat)) (x : Nat) : Bool :=
  match l.getLast? with
  | none => false
  | some e => !(decFp .f32 e.1).isNaN && fpLtZ (decFp .f32 e.1) (decFp .f32 x)
def topkStep (a : List (Nat × Nat) × Bool) (x : Nat × Nat) : List (Nat × Nat) × Bool :=
  let v := decFp .f32 x.1
  if v.isNaN then (a.1, a.2 || v.isSNaN)
  else if topkTakes a.1 x.1 then (topkInsert a.1 x, a.2) else a
/-- The register after d; d is even. -/
def nextReg (d : Reg) : Reg := d + 1
/-- VTOPKINS (08 R269). -/
def execVtopkins (o : OpVDAB) (s : State) : Out :=
  .next (s.vOp o.g o.t typesF32 [] (fun _ _ x _ =>
    let e := nextReg o.d
    let js := x.act none
    let l := js.map (fun j => (x.cell o.d j, x.cell e j))
    let cand := (span 0 256).filter (fun j => match o.m with | none => true | some k => x.mask k j)
    let r := (cand.map (fun j => (x.cell o.a j, x.cell o.b j))).foldl topkStep (l, false)
    { ctx := (x.puts o.d (js.map (fun j => (j, (r.1.getD j (0, 0)).1)))).puts e (js.map (fun j => (j, (r.1.getD j (0, 0)).2))),
      fl := { Flags.none with iv := r.2 }, nars := 0, poison := none }))
/-- VTOPKTHR (08 R270). It makes no verdict check: the list of 03 R103 does not name it, and it moves the score without interpreting it (DESIGN
CHOICE, log 63). -/
def execVtopkthr (o : OpVDA) (s : State) : Out :=
  .next (s.vReduce o typesF32 false (fun x t =>
    (wd (if x.vl = 0 then 0xFF800000 else x.elem t o.a (x.vl - 1)), Flags.none)))

/-! ### Context control (08 R248, R271) -/

/-- The members of page 2, major 14: the guard and the feature step. -/
def State.vCtl (s : State) (g : Guard) (k : CoreId → Nat → Strand → State → State) : State :=
  match s.curStrand with
  | none => s
  | some (c, n, st) => if !guardHolds st g then s.putStrand c n st.finish else s.vecHome c n st (k c n st s)

def execVbind (o : Op0) (s : State) : Out :=
  .next (s.vCtl o.g (fun c n st s => s.vecBind c n st (fun st _ _ s => s.complete c n st)))
/-- VFREE waits for the strand's vector instructions, then releases the context (08 R248). -/
def execVfree (o : Op0) (s : State) : Out :=
  .next (s.vCtl o.g (fun c n st s =>
    if (s.core c).vectorOpen st.uid then s.block c n st .mem
    else (s.freeVector c st).complete c n { st with vctx := none, stat := { st.stat with vbound := false } }))
def execVwait (o : Op0) (s : State) : Out :=
  .next (s.vCtl o.g (fun c n st s => if (s.core c).vectorOpen st.uid then s.block c n st .mem else s.complete c n st))

def elemOfCode : Nat → Option Elem
  | 1 => some .i32 | 2 => some .f32 | 3 => some .bf16 | 4 => some .t8 | 5 => some .t6 | 6 => some .i8 | _ => none
def elemCode : Elem → Nat
  | .i32 => 1 | .f32 => 2 | .bf16 => 3 | .t8 => 4 | .t6 => 5 | .i8 => 6
/-- VSETL (08 R271). -/
def execVsetl (o : OpX) (s : State) : Out :=
  .next (s.vCtl o.g (fun c n st s => s.vecBind c n st (fun st i x s =>
    match s.gate c n st [o.x] [o.x] none with
    | .stop s => s
    | .go st vals commit =>
      let v := v0 vals
      let x' : VecCtx :=
        { x with vl := min (fld v 31 0) 256, ty := (elemOfCode (fld v 34 32)).getD x.ty,
                 blen := match fld v 37 36 with | 1 => 16 | 2 => 32 | _ => x.blen }
      ((commit s).setVctx c i x').complete c n st)))
/-- VGETL (08 R271). -/
def execVgetl (o : OpX) (s : State) : Out :=
  .next (s.vCtl o.g (fun c n st s => s.vecBind c n st (fun st _ x s =>
    match s.gate c n st [] [] (some o.x) with
    | .stop s => s
    | .go st _ commit =>
      (commit s).writeBack c n st (some o.x)
        (wd ((if x.blen = 16 then 1 else 2) * 2 ^ 36 + elemCode x.ty * 2 ^ 32 + x.vl)))))
/-- VPIXRD (08 R271). -/
def execVpixrd (o : OpX) (s : State) : Out :=
  .next (s.vCtl o.g (fun c n st s => s.vecBind c n st (fun st _ x s =>
    match s.gate c n st [] [] (some o.x) with
    | .stop s => s
    | .go st _ commit =>
      (commit s).writeBack c n st (some o.x) (wd (fld x.vdmpc 55 1 * 512 + popN 256 x.vdm.toNat % 512)))))

end Sys2Proof.Machine
end

