-- ==== Sys2Proof/Machine/Collectives.lean ====
section
/-! DEFINITION. Crew barriers, gang barriers and wheel collectives, with their fabric phases (03 R109; 07 R235, R236; 12 R387 to R390;
16 R459, R460). -/
namespace Sys2Proof.Machine
open Sys2Proof

/-! ### The crew barrier (07 R235, R236) -/

def Core.setCrew (k : Core) (l : Nat) (x : Crew) : Core := { k with crews := tblSet k.crews l x }
/-- All of members 0 to size - 1 are in a mask. -/
def coversAll (size mask : Nat) : Bool := (span 0 size).all (fun m => mask / 2 ^ m % 2 = 1)
def maskHas (mask m : Nat) : Bool := mask / 2 ^ m % 2 = 1
def maskAdd (mask m : Nat) : Nat := mask ||| 2 ^ m
def maskDel (mask m : Nat) : Nat := if maskHas mask m then mask - 2 ^ m else mask

def Crew.notice (x : Crew) (l m : Nat) : Option (Ref × Body) :=
  match List.lookup m x.refs with
  | none => none
  | some r => some (r, .crewDone r l m x.phase (x.exited != 0))
/-- A completion goes to a member. -/
def State.crewTell (s : State) (d : CoreId) (l : Nat) (x : Crew) (m : Nat) : State :=
  match x.notice l m with
  | none => s
  | some (r, b) => s.send d r.core true (some { part := s.partOf d, lslot := l }) b
def State.crewTellAll (s : State) (d : CoreId) (l : Nat) (x : Crew) : List Nat → State
  | [] => s
  | m :: t => (s.crewTell d l x m).crewTellAll d l x t
/-- The test of 07 R236. -/
def State.crewTest (s : State) (d : CoreId) (l : Nat) : State :=
  match List.lookup l (s.core d).crews with
  | none => s
  | some x =>
    if coversAll x.size (x.arrived ||| x.exited) then
      let x' : Crew := { x with phase := (x.phase + 1) % 2 ^ 32, pendrel := x.arrived, arrived := 0 }
      (s.modCore d (fun k => k.setCrew l x')).crewTellAll d l x' ((span 0 32).filter (maskHas x'.pendrel))
    else s

/-- BARC (07 R235): release, arrive, wait for the completion. -/
def execBarc (o : OpD) (s : State) : Out :=
  .next (s.issue o.g none [] [] (some o.d) (fun c n st _ commit s =>
    match st.lslot, s.crewCore c st with
    | some l, some d =>
      if st.spawned then (commit s).writeBack c n st (some o.d) (wd (2 ^ 63))
      else s.released c n st false (fun s =>
        ((commit s).putStrand c n { st with run := .await .msg (waitFor (.barc o.d)) }).send c d false (s.tagOf c st.lslot)
          (.crewArrive l st.member ⟨c, n, st.uid⟩))
    | _, _ => (commit s).writeBack c n st (some o.d) (wd (2 ^ 63))))

/-- A message of one kind at the head of its path is received and handled; any other leaves the state alone (12 R375; log 8). -/
def State.onMsg (s : State) (i : Nat) (k : Msg → State → State) : Out :=
  .next (match s.net[i]? with
    | none => s
    | some m => if s.deliverable i m then k m s else s)

/-- CREW_ARRIVE (07 R236). -/
def execCrewArrive (o : EvMsg) (s : State) : Out :=
  s.onMsg o.i (fun m s =>
    match m.body with
    | .crewArrive l mem ref =>
      let e := (s.receive o.i m).crewRead m.dst l
      let s := e.2
      (match e.1 with
       | none => s
       | some x =>
         let x : Crew := { x with mark := .clean, refs := tblSet x.refs mem ref }
         if maskHas x.pendrel mem then (s.modCore m.dst (fun k => k.setCrew l x)).crewTell m.dst l x mem
         else (s.modCore m.dst (fun k => k.setCrew l { x with arrived := maskAdd x.arrived mem })).crewTest m.dst l)
    | _ => s)

/-- CREW_COMPLETION (07 R235, R236): the waiting member gets the status and its core acknowledges; a stopped strand's core
discards it. -/
def execCrewCompletion (o : EvMsg) (s : State) : Out :=
  s.onMsg o.i (fun m s =>
    match m.body with
    | .crewDone r l mem phase seen =>
      let s := s.receive o.i m
      (match s.strandOf r with
       | none => s
       | some st =>
         match st.run with
         | .await _ q =>
           (match q.cont with
            | .barc d =>
              (s.writeBack r.core r.slot st (some d) (wd (b01 seen * 2 ^ 32 + phase))).send r.core m.src true
                (s.tagOf r.core st.lslot) (.crewDoneAck l mem)
            | _ => s)
         | _ => s)
    | _ => s)

/-- CREW_COMPLETION_ACK (07 R236). -/
def execCrewCompletionAck (o : EvMsg) (s : State) : Out :=
  s.onMsg o.i (fun m s =>
    match m.body with
    | .crewDoneAck l mem =>
      let e := (s.receive o.i m).crewRead m.dst l
      let s := e.2
      (match e.1 with
       | none => s
       | some x => s.modCore m.dst (fun k => k.setCrew l { x with mark := .clean, pendrel := maskDel x.pendrel mem }))
    | _ => s)

/-! ### Gang channels (12 R387, R388) -/

def Channel.fresh (l ch : Nat) : Channel :=
  { lslot := l, chan := ch, arrived := 0, done := 0, phase := 0, vals := [], posted := none, shrinking := false, result := 0,
    ok := true, flags := Flags.none, shrunk := false, exitSeen := false }
def Core.chan? (k : Core) (l ch : Nat) : Option Channel := k.chans.find? (fun x => x.lslot = l && x.chan = ch)
def Core.chanOf (k : Core) (l ch : Nat) : Channel := (k.chan? l ch).getD (Channel.fresh l ch)
def Core.setChan (k : Core) (x : Channel) : Core :=
  { k with chans := k.chans.filter (fun y => !(y.lslot = x.lslot && y.chan = x.chan)) ++ [x] }

/-- KIND of a wheel slot in WSLOTS: 1 barrier, 2 reduction (12 R383). -/
def Core.slotKind (k : Core) (ch : Nat) : Nat := if 11 ≤ ch && ch < 32 then fld k.cfg.wslots (2 * (ch - 11) + 1) (2 * (ch - 11)) else 0
/-- The slot is a fabric channel of the core's partition (16 R453, R459). -/
def Core.isFabric (k : Core) (ch : Nat) : Bool := bitAt k.cfg.fabcfg 15 && 11 ≤ ch && ch < 32 && bitAt k.cfg.fabslots (ch - 11)

/-- The arrival of a member is on its way to its crew core. -/
def State.arrivalSent (s : State) (d : CoreId) (l ch mem : Nat) : Bool :=
  s.net.any (fun m => match m.body with
    | .gangArrive l' ch' mem' _ _ => m.dst = d && l' = l && ch' = ch && mem' = mem
    | _ => false)

/-- The crew's channel is complete on its side: a posting, or every member exited (12 R387). -/
def Core.crewReady (k : Core) (l ch : Nat) : Bool :=
  match List.lookup l k.crews with
  | none => true
  | some x => ((k.chanOf l ch).posted).isSome || coversAll x.size x.exited

/-- One gang's crews: each core of its rectangle with the core that answers for it, and whether the phase still waits for it
(12 R387, R389; 10 R345). -/
def State.gangCrews (s : State) (p : Nat) (l : Launch) (g : Gang) : List (CoreId × CoreId) :=
  ((l.gangCores p g).filter (fun c => !g.ended.contains c)).map (fun c => (c, s.standIn c))
/-- A lost core completes no phase of its gang (12 R395). -/
def State.phaseReady (s : State) (p lslot : Nat) (l : Launch) (g : Gang) (ch : Nat) : Bool :=
  let cs := s.gangCrews p l g
  cs.all (fun c => match (s.core c.2).cfg.cls with | .live => true | _ => false) &&
  cs.any (fun c => (((s.core c.2).chanOf lslot ch).posted).isSome) &&
  cs.all (fun c => c.1 != c.2 || (s.core c.2).crewReady lslot ch)
/-- The channel has an open phase in the gang. -/
def State.phaseOpen (s : State) (p lslot : Nat) (l : Launch) (g : Gang) (ch : Nat) : Bool :=
  (s.gangCrews p l g).any (fun c => ((s.core c.2).chanOf lslot ch).arrived != 0)

/-- The values of a gang's participants with their ranks (LN of the crew core, member), in ascending order (12 R390). -/
def State.phaseVals (s : State) (p lslot : Nat) (l : Launch) (g : Gang) (ch : Nat) : List (Nat × Word × Nat) :=
  ((s.gangCrews p l g).map (fun c =>
    let x := (s.core c.2).chanOf lslot ch
    if x.posted.isSome then x.vals.map (fun v => ((s.core c.1).cfg.ln % 65536 * 32 + v.1, v.2)) else [])).flatten.foldl
      (fun acc v => tblSet acc v.1 v.2) []

/-! ### The value of a collective (03 R109; 12 R390). A kind is fn + 4 × TYPE; barriers have kind 0x100. -/

def collectInt (fn : Nat) (signed : Bool) (xs : List Word) : Word :=
  match fn, xs with
  | 0, _ => xs.foldl (· + ·) 0
  | 3, _ => xs.foldl (· ||| ·) 0
  | _, [] => 0
  | f, a :: t =>
    t.foldl (fun m x =>
      let less : Bool := if signed then m.sval < x.sval else m.toNat < x.toNat
      if f = 1 then (if less then x else m) else (if less then m else x)) a
def collectFp (fn : Nat) (xs : List Word) : Word × Flags :=
  let ys := xs.map (fun x => x.toNat % 2 ^ 32)
  match fn with
  | 0 => let r := treeSum .f32 (ys.map some); (wd r.1, r.2)
  | 3 => (wd (ys.foldl (· ||| ·) 0), Flags.none)
  | f => let r := vExtreme (f = 1) .f32 ys; (wd r.1, r.2)
/-- Result, p3, flags: unequal kinds give 0 and p3 := 0 (12 R390). -/
def collect (vals : List (Nat × Word × Nat)) : Word × Bool × Flags :=
  match vals with
  | [] => (0, true, Flags.none)
  | v :: _ =>
    let kind := v.2.2
    if vals.any (fun x => x.2.2 != kind) then (0, false, Flags.none)
    else if kind ≥ 0x100 then (0, true, Flags.none)
    else if kind / 4 = 2 then
      if vals.length > 65536 then (0, false, Flags.none)
      else let r := collectFp (kind % 4) (vals.map (·.2.1)); (r.1, true, r.2)
    else (collectInt (kind % 4) (kind / 4 != 1) (vals.map (·.2.1)), true, Flags.none)

/-! ### Fabric phases (16 R459, R460) -/

/-- The partitions of a fabric group: those whose cores name the same ROOT. -/
def State.groupParts (s : State) (root : Nat) : List Nat :=
  (s.parts.filter (fun x => match x.2.live with
    | [] => false
    | c :: _ => bitAt (s.core c).cfg.fabcfg 15 && fld (s.core c).cfg.fabcfg 21 16 = root)).map (·.1)
def State.headCore (s : State) (p : Nat) : Option CoreId := s.lnCore p 0

/-- Insert a participant by its rank; equal ranks of two launches keep the order of the launches. -/
def insertRank (x : Nat × Word × Nat) : List (Nat × Word × Nat) → List (Nat × Word × Nat)
  | [] => [x]
  | y :: t => if x.1 < y.1 then x :: y :: t else y :: insertRank x t
/-- Once every gang that uses the channel has posted, the partition's partial goes to ROOT, its values in rank order (03 R109; 16 R459).
Which gangs use the channel in a phase the spec does not say: the model takes those that have an open arrival when the last of them posts
(DESIGN CHOICE, log 57). -/
def State.fabricPost (s : State) (p ch : Nat) (d : CoreId) : State :=
  match s.part p with
  | none => s
  | some x =>
    if x.fabSent.contains ch then s
    else
      let gs := (x.launches.filterMap (fun l => match l.slot with
        | none => none
        | some sl => some (l.gangs.map (fun g => (sl, l, g))))).flatten
      let used := gs.filter (fun g => s.phaseOpen p g.1 g.2.1 g.2.2 ch)
      if used.isEmpty || !used.all (fun g => s.phaseReady p g.1 g.2.1 g.2.2 ch) then s
      else
        let vals := (used.map (fun g => s.phaseVals p g.1 g.2.1 g.2.2 ch)).flatten.foldl (fun l v => insertRank v l) []
        let kind := match vals with
          | [] => 0x100
          | v :: t => if t.any (fun y => y.2.2 != v.2.2) then 0xFFFF else v.2.2
        let root := fld (s.core d).cfg.fabcfg 21 16
        match (s.groupParts root).find? (fun q => waferOfPart q = root) with
        | none => s
        | some q =>
          match s.headCore q with
          | none => s
          | some r =>
            (s.setPart p { x with fabSent := setAdd x.fabSent ch }).send d r false none
              (.fabPartial p ch (vals.map (fun v => (v.1, v.2.1))) kind)

/-! ### Arrivals -/

/-- A gang of the launch slot that has the core among its crews has an open phase on the channel. -/
def State.gangOpen (s : State) (d : CoreId) (l ch : Nat) : Bool :=
  match s.part (s.partOf d) with
  | none => false
  | some x =>
    match x.slotLaunch l with
    | none => false
    | some w => w.gangs.any (fun g => (w.gangCores (s.partOf d) g).contains d && s.phaseOpen (s.partOf d) l w g ch)
/-- When every member has arrived or exited, the crew posts in the current period; a crew whose members have all exited posts in an open
phase (12 R387). -/
def State.chanTest (s : State) (d : CoreId) (l ch : Nat) : State :=
  match List.lookup l (s.core d).crews with
  | none => s
  | some x =>
    let y := (s.core d).chanOf l ch
    if !x.removed && y.posted.isNone && (y.arrived != 0 || s.gangOpen d l ch) && coversAll x.size (y.arrived ||| x.exited) then
      let p := s.partOf d
      let now := match s.part p with | none => 0 | some q => q.period
      let s := s.modCore d (fun k => k.setChan { y with posted := some now })
      if (s.core d).isFabric ch then s.fabricPost p ch d else s
    else s
def State.chanTests (s : State) (d : CoreId) (l : Nat) : List Nat → State
  | [] => s
  | ch :: t => (s.chanTest d l ch).chanTests d l t
/-- ARRIVED is set with the member's value (12 R387, R388). -/
def State.chanArrive (s : State) (d : CoreId) (l ch mem : Nat) (v : Word) (kind : Nat) : State :=
  let y := (s.core d).chanOf l ch
  (s.modCore d (fun k => k.setChan { y with arrived := maskAdd y.arrived mem, vals := tblSet y.vals mem (v, kind) })).chanTest d l ch

/-- CREW_EXIT_NOTICE (07 R236; 12 R387). -/
def execCrewExitNotice (o : EvMsg) (s : State) : Out :=
  s.onMsg o.i (fun m s =>
    match m.body with
    | .crewExit l mem =>
      let e := (s.receive o.i m).crewRead m.dst l
      let s := e.2
      (match e.1 with
       | none => s
       | some x =>
         ((s.modCore m.dst (fun k => k.setCrew l { x with mark := .clean, exited := maskAdd x.exited mem })).crewTest m.dst l).chanTests m.dst l
           (span 11 21))
    | _ => s)

/-- GANG_ARRIVE (12 R388). -/
def execGangArrive (o : EvMsg) (s : State) : Out :=
  s.onMsg o.i (fun m s =>
    match m.body with
    | .gangArrive l ch mem v kind => (s.receive o.i m).chanArrive m.dst l ch mem v kind
    | _ => s)

/-! ### Completion of a phase (12 R387, R389) -/

def Channel.finishPhase (y : Channel) (r : Word × Bool × Flags) (shrunk seen : Bool) : Channel :=
  { y with done := y.done ||| y.arrived, arrived := 0, vals := [], posted := none, phase := (y.phase + 1) % 2 ^ 32,
           shrinking := false, result := r.1, ok := r.2.1, flags := r.2.2, shrunk := shrunk, exitSeen := seen }
def State.finishCrews (s : State) (lslot ch : Nat) (r : Word × Bool × Flags) (shrunk : Bool) : List (CoreId × CoreId) → State
  | [] => s
  | c :: t =>
    let k := s.core c.2
    let seen := match List.lookup lslot k.crews with | none => true | some x => x.exited != 0
    let s := match k.chan? lslot ch with
      | none => s
      | some y => s.setCore c.2 (k.setChan (y.finishPhase r shrunk seen))
    s.finishCrews lslot ch r shrunk t
/-- A fabric channel's phase ends for every gang of the partition that posted; it frays logged windows (15 R443; 16 R460). -/
def State.frayGang (s : State) (p : Nat) (l : Launch) : State :=
  if recLog l.words then
    match s.headCore p with
    | none => s
    | some d => s.fray d l.asid l.slot true
  else s

/-- GANG_PHASE_COMPLETE (12 R387, R389, R390; 16 R460): the phase of gang o.gang on channel o.chan. -/
def execGangPhaseComplete (o : EvPhase) (s : State) : Out :=
  .next (match s.part o.p with
    | none => s
    | some x =>
      match x.slotLaunch o.lslot with
      | none => s
      | some l =>
        match l.gangs.find? (fun g => g.no = o.gang) with
        | none => s
        | some g =>
          let cs := s.gangCrews o.p l g
          let last := (cs.filterMap (fun c => ((s.core c.2).chanOf o.lslot o.chan).posted)).foldl max 0
          let shrunk := cs.any (fun c => ((s.core c.2).chanOf o.lslot o.chan).shrinking)
          let fabric := match s.headCore o.p with | none => false | some d => (s.core d).isFabric o.chan
          if !s.phaseReady o.p o.lslot l g o.chan || x.period < last + 2 then s
          else if fabric then
            match x.fabResults.find? (fun r => r.chan = o.chan) with
            | none => s
            | some r =>
              if x.period < r.period + 2 then s
              else
                let s := (s.finishCrews o.lslot o.chan (r.v, r.ok, r.flags) shrunk cs).frayGang o.p l
                let more := (x.launches.filterMap (fun l => match l.slot with
                  | none => none
                  | some sl => some (l.gangs.any (fun g => s.phaseReady o.p sl l g o.chan)))).any id
                if more then s
                else s.modPart o.p (fun x => { x with fabSent := setDel x.fabSent o.chan,
                                                      fabResults := x.fabResults.filter (fun r => r.chan != o.chan) })
          else s.finishCrews o.lslot o.chan (collect (s.phaseVals o.p o.lslot l g o.chan)) shrunk cs)

/-! ### Fabric partials and results -/

/-- ROOT sends the result to every member partition. -/
def sendResults (s : State) (src : CoreId) (ch : Nat) (r : Word × Bool × Flags) : List Nat → State
  | [] => s
  | p :: t =>
    match s.headCore p with
    | none => sendResults s src ch r t
    | some d => sendResults (s.send src d true none (.fabResult ch r.1 r.2.1 r.2.2)) src ch r t

/-- FABRIC_PARTIAL_ARRIVAL (16 R459): ROOT evaluates the phase over all ranks, in wafer order, once every partition of the group
has sent its partial. -/
def execFabricPartialArrival (o : EvMsg) (s : State) : Out :=
  s.onMsg o.i (fun m s =>
    match m.body with
    | .fabPartial part ch vals kind =>
      let s := s.receive o.i m
      let p := s.partOf m.dst
      let members := s.groupParts (waferOfPart p)
      let old := match s.pkg.fabPhases.find? (fun f => f.part = p && f.chan = ch) with | none => [] | some f => f.partials
      let now := tblSet old part (vals, kind)
      let rest := s.pkg.fabPhases.filter (fun f => !(f.part = p && f.chan = ch))
      if members.all (fun q => (List.lookup q now).isSome) then
        let all := (now.map (fun e => e.2.1.map (fun v => (v.1, v.2, e.2.2)))).flatten
        let r := if all.any (fun v => v.2.2 = 0xFFFF) then (0, false, Flags.none) else collect all
        sendResults { s with pkg := { s.pkg with fabPhases := rest } } m.dst ch r members
      else { s with pkg := { s.pkg with fabPhases := rest ++ [{ part := p, chan := ch, partials := now }] } }
    | _ => s)

/-- FABRIC_RESULT (16 R460): the result reaches a member partition in its current period. -/
def execFabricResult (o : EvMsg) (s : State) : Out :=
  s.onMsg o.i (fun m s =>
    match m.body with
    | .fabResult ch v ok fl =>
      let s := s.receive o.i m
      s.modPart (s.partOf m.dst) (fun x =>
        { x with fabResults := x.fabResults.filter (fun r => r.chan != ch) ++
                   [{ chan := ch, v := v, ok := ok, flags := fl, period := x.period }] })
    | _ => s)

/-! ### BARG, BARGA, BARGW (12 R388) -/

/-- What a participant finds at its crew core. -/
structure ChanView where
  d : CoreId
  lslot : Nat
  y : Channel
  /-- ARRIVED, an arrival on its way included -/
  arrived : Bool
  done : Bool
  /-- the strand's crew takes part no more, and nothing of it is left in the open phase (12 R389) -/
  gone : Bool

def State.chanView (s : State) (c : CoreId) (st : Strand) (ch : Nat) : Option ChanView :=
  match st.lslot, s.crewCore c st with
  | some l, some d =>
    match List.lookup l (s.core d).crews with
    | none => none
    | some x =>
      let y := (s.core d).chanOf l ch
      let arrived := maskHas y.arrived st.member || s.arrivalSent d l ch st.member
      let done := maskHas y.done st.member
      some { d := d, lslot := l, y := y, arrived := arrived, done := done, gone := x.removed && !arrived && !done }
  | _, _ => none

/-- A member arrives: at once at the crew core, by a message when it stands away (12 R388). -/
def State.arriveOn (s : State) (c : CoreId) (st : Strand) (w : ChanView) (ch : Nat) (v : Word) (kind : Nat) : State :=
  if w.d = c then s.chanArrive c w.lslot ch st.member v kind
  else s.send c w.d false (s.tagOf c st.lslot) (.gangArrive w.lslot ch st.member v kind)
/-- DONE is consumed. -/
def State.takeDone (s : State) (st : Strand) (w : ChanView) : State :=
  s.modCore w.d (fun k => k.setChan { w.y with done := maskDel w.y.done st.member })

def stNotMember : Word := wd (2 ^ 63)
def stBadChan : Word := wd (2 ^ 61)
def stExpired : Word := wd (2 ^ 60)
def stNoArrive : Word := wd (2 ^ 59)
/-- The status of a completed phase. -/
def Channel.status (y : Channel) : Word := wd (b01 y.shrunk * 2 ^ 62 + b01 y.exitSeen * 2 ^ 32 + y.phase)

/-- A barrier instruction ends with its status and p3. -/
def State.barEnd (s : State) (c : CoreId) (n : Nat) (st : Strand) (d : Option Reg) (commit : State → State) (status : Word)
    (ok : Bool) : State :=
  (commit s).writeBack c n (st.setP3 ok) d status

/-- The participant, or the end of the instruction where the strand is no member or the channel is bad (12 R388). -/
def State.onChannel (s : State) (c : CoreId) (n : Nat) (st : Strand) (d : Option Reg) (ch kind : Nat) (commit : State → State)
    (notMember bad : Word × Bool) (k : ChanView → State) : State :=
  match s.chanView c st ch with
  | none => s.barEnd c n st d commit notMember.1 notMember.2
  | some w =>
    if st.spawned || w.gone then s.barEnd c n st d commit notMember.1 notMember.2
    else if (s.core c).slotKind ch != kind then s.barEnd c n st d commit bad.1 bad.2
    else k w

/-- BARG (12 R388): release and arrive unless that is done, then wait for DONE. -/
def execBarg (o : OpDA) (s : State) : Out :=
  .next (s.issue o.g none [o.a] [o.a] (some o.d) (fun c n st v commit s =>
    let ch := fld (v0 v) 4 0
    s.onChannel c n st (some o.d) ch 1 commit (stNotMember, true) (stBadChan, false) (fun w =>
      if w.done then (s.takeDone st w).barEnd c n st (some o.d) commit w.y.status true
      else if w.arrived then s.block c n st .msg
      else s.released c n st ((s.core c).isFabric ch) (fun s => (s.arriveOn c st w ch 0 0x100).block c n st .msg))))

/-- BARGA (12 R388). -/
def execBarga (o : OpA) (s : State) : Out :=
  .next (s.issue o.g none [o.a] [o.a] none (fun c n st v commit s =>
    let ch := fld (v0 v) 4 0
    s.onChannel c n st none ch 1 commit (0, true) (0, false) (fun w =>
      if w.done || w.arrived then s.barEnd c n st none commit 0 false
      else s.released c n st ((s.core c).isFabric ch) (fun s => (s.arriveOn c st w ch 0 0x100).barEnd c n st none commit 0 true))))

/-- BARGW (12 R388): it never takes WAIT-EXPIRY. -/
def execBargw (o : OpDAB) (s : State) : Out :=
  .next (s.issue o.g none [o.a, o.b] [o.a, o.b] (some o.d) (fun c n st v commit s =>
    let ch := fld (v0 v) 4 0
    s.onChannel c n st (some o.d) ch 1 commit (stNotMember, true) (stBadChan, false) (fun w =>
      if w.done then (s.takeDone st w).barEnd c n st (some o.d) commit w.y.status true
      else if !w.arrived then s.barEnd c n st (some o.d) commit stNoArrive false
      else
        let lim := s.limitAt st (v1 v)
        if s.isDue lim then s.barEnd c n st (some o.d) commit stExpired false
        else s.block c n { st with deadline := lim } .msg)))

/-! ### Wheel collectives (12 R390) -/

/-- WSUM, WMAX, WMIN, WOR with fn 0 to 3; TYPE 3 acts as 0. -/
def State.collective (s : State) (o : OpDAB) (fn : Nat) : State :=
  s.issue o.g none [o.a, o.b] [o.a, o.b] (some o.d) (fun c n st v commit s =>
    let ch := fld (v1 v) 4 0
    let ty := if fld (v1 v) 9 8 = 3 then 0 else fld (v1 v) 9 8
    s.onChannel c n st (some o.d) ch 2 commit (0, false) (0, false) (fun w =>
      if w.done then
        let s := ((s.takeDone st w).fpEvents c st.lslot w.y.flags 0)
        s.barEnd c n (st.raise w.y.flags) (some o.d) commit w.y.result (w.y.ok && !w.y.shrunk)
      else if w.arrived then s.block c n st .msg
      else if ty = 2 && isVN .f32 (low32 (v0 v)) then s.takeFault c n st (fVerdict 0 (low32 (v0 v)))
      else s.released c n st ((s.core c).isFabric ch) (fun s => (s.arriveOn c st w ch (v0 v) (fn + 4 * ty)).block c n st .msg)))
def execWsum (o : OpDAB) (s : State) : Out := .next (s.collective o 0)
def execWmax (o : OpDAB) (s : State) : Out := .next (s.collective o 1)
def execWmin (o : OpDAB) (s : State) : Out := .next (s.collective o 2)
def execWor (o : OpDAB) (s : State) : Out := .next (s.collective o 3)

end Sys2Proof.Machine
end

