-- ==== Sys2Proof/Machine/MatrixCalc.lean ====
section
/-! DEFINITION. The arithmetic of the matrix engine: granule sums, microprograms, output conversion, and the bound monitor of score
mode (03 R93 to R96, R105 to R108; 09 R308 to R319). -/
namespace Sys2Proof.Machine
open Sys2Proof

/-! ### Operand formats (01 R28; 03 R94) -/

/-- The TYPE and block length of an FMTA or FMTB value; an unscaled operand has length 32 (03 R105). -/
def fmtType (f : Nat) : Nat := f % 16
def fmtScaled (f : Nat) : Bool := f / 16 % 4 != 0
def fmtBlen (f : Nat) : Nat := if f / 16 % 4 = 1 then 16 else 32
/-- A value that breaks 01 R28. -/
def fmtBad (f : Nat) : Bool :=
  !(fmtType f = 3 || fmtType f = 4 || fmtType f = 5) || f / 16 % 4 = 3 || (f / 16 % 4 = 0 && fmtType f != 3)
/-- Bits of an element. -/
def fmtBits (f : Nat) : Nat := if fmtType f = 3 then 16 else if fmtType f = 4 then 8 else 6
/-- Bytes of a frame of 32 elements. -/
def frameBytes (f : Nat) : Nat := 4 * fmtBits f
/-- Element i of bytes that hold elements back to back. -/
def elemAt (f : Nat) (bytes : Nat) (i : Nat) : Nat := bytes / 2 ^ (fmtBits f * i) % 2 ^ fmtBits f
def decElem (f code : Nat) : FVal :=
  if fmtType f = 3 then decFp .bf16 code else decTaper (fmtBits f) code
/-- A verdict NaN among BF16 elements (03 R103). -/
def elemVN (f code : Nat) : Bool := fmtType f = 3 && isVN .bf16 code

/-! ### One granule of MADD (03 R105 to R107) -/

/-- The exact sum of products, with what makes it special: a NaN, and infinities of each sign. -/
structure GSum where
  i : Int
  e : Int
  nan : Bool
  bad : Bool
  pinf : Bool
  ninf : Bool
  deriving DecidableEq, Repr

def GSum.zero : GSum := { i := 0, e := 0, nan := false, bad := false, pinf := false, ninf := false }
def GSum.add (g : GSum) (a b : FVal) : GSum :=
  if a.isNaN || b.isNaN then { g with nan := true }
  else if (a.isInf && b.isZero) || (a.isZero && b.isInf) then { g with bad := true }
  else if a.isInf || b.isInf then (if a.neg != b.neg then { g with ninf := true } else { g with pinf := true })
  else if a.isZero || b.isZero then g
  else
    let x := a.toInt; let y := b.toInt
    let r := addExact (g.i, if g.i = 0 then x.2 + y.2 else g.e) (x.1 * y.1, x.2 + y.2)
    { g with i := r.1, e := r.2 }

/-- The accumulator after one granule whose scales multiply to 2^k; `nanScale` for a NaN scale. A granule whose exact sum is zero leaves the
accumulator as it is, so −0 stays −0: the sign of the exact zero is not stated (DESIGN CHOICE, log 59). -/
def accGranule (acc : Nat) (g : GSum) (k : Int) (nanScale : Bool) : Nat × Flags :=
  let x := decFp .f32 acc
  let inv := !g.nan && !nanScale && (g.bad || (g.pinf && g.ninf))
  if g.nan || nanScale || inv || x.isNaN then nanRes .f32 (inv && !x.isNaN)
  else if g.pinf || g.ninf then fpAdd .f32 .rne x (.inf g.ninf)
  else if g.i = 0 then (acc, Flags.none)
  else fpAdd .f32 .rne x (.fin (g.i < 0) g.i.natAbs (g.e + k))

/-! ### Microprograms (09 R312, R313; 03 R108) -/

def opReserved (w : Nat) : Bool :=
  let x := w / 512 % 8
  let y := w / 64 % 8
  let one := w / 8192 ≥ 5
  x > 4 || (if one then y != 0 else y > 4) || w % 64 != 0

/-- An op block that MPROG loads, or none (09 R312). -/
def parseProg (lo hi : Nat) : Option (List Nat × Bool) :=
  let n := hi % 8
  let ops := [lo % 65536, lo / 65536 % 65536, lo / 2 ^ 32 % 65536, lo / 2 ^ 48 % 65536]
  if n = 0 || n > 4 || hi / 8 % 32 != 0 || hi / 512 != 0 || (ops.take n).any opReserved then none
  else some (ops.take n, hi / 256 % 2 = 1)

/-- One op on FP32 encodings (09 R312). -/
def runOp (op x y : Nat) : Nat × Flags :=
  match op with
  | 0 => fpAdd .f32 .rne (decFp .f32 x) (decFp .f32 y)
  | 1 => fpSub .f32 .rne (decFp .f32 x) (decFp .f32 y)
  | 2 => fpMul .f32 .rne (decFp .f32 x) (decFp .f32 y)
  | 3 => fpMinMax .f32 true x y
  | 4 => fpMinMax .f32 false x y
  | 5 => fpSignOp .f32 false x
  | 6 => fpSignOp .f32 true x
  | _ => if (decFp .f32 x).isNaN then nanRes .f32 (decFp .f32 x).isSNaN else (x, Flags.none)

def opArg (a b s t c k : Nat) : Nat := match k with | 0 => a | 1 => b | 2 => s | 3 => t | _ => c
/-- The flags of one rounding beside those of the roundings before it: each counts its own events (03 R86). -/
def also (fl : Flags) (l : List Flags) : List Flags := if fl = Flags.none then l else fl :: l
/-- The ops of one element: s after them, and the flags of each. -/
def runOps (a b c : Nat) : List Nat → Nat → Nat → List Flags → Nat × List Flags
  | [], s, _, fl => (s, fl)
  | w :: l, s, t, fl =>
    let r := runOp (w / 8192) (opArg a b s t c (w / 512 % 8)) (opArg a b s t c (w / 64 % 8))
    if w / 4096 % 2 = 0 then runOps a b c l r.1 t (also r.2 fl) else runOps a b c l s r.1 (also r.2 fl)

/-- The rounded operand of a microprogram (09 R313). -/
def progOperand (v : FVal) (scale : Nat) : Nat × Flags :=
  if v.isNaN || scale = 0xFF then (Fmt.f32.nan, Flags.none)
  else cvtToFp .f32 .rne false (v.scale ((scale : Int) - 127))
def progElem (ops : List Nat) (c s : Nat) (a b : FVal) (sa sb : Nat) : Nat × List Flags :=
  let x := progOperand a sa
  let y := progOperand b sb
  runOps x.1 y.1 c ops s 0 (also x.2 (also y.2 []))

/-! ### Output (09 R310) -/

def outBytes (fmt : Nat) : Nat := match fmt with | 0 => 4 | 1 => 2 | _ => 1
/-- A result in OUTFMT, its flags, and whether it is a NaR. -/
def outConv (fmt : Nat) (sat : Bool) (acc : Nat) : Nat × Flags × Bool :=
  match fmt with
  | 0 => (acc, Flags.none, false)
  | 1 => let r := cvtF32Bf16 sat acc; (r.1, r.2, false)
  | _ => let r := taperRound 8 sat (decFp .f32 acc); (r.1, r.2, r.1 = 128)

/-! ### The bound monitor (09 R318) -/

/-- maxpos of a tapered format as a power of two. -/
def maxposLog (f : Nat) : Int := if fmtType f = 4 then 12 else 8
/-- log2 of ulp(x) for a non-negative exact value. -/
def ulpLog (x : Int × Int) : Int :=
  if x.1 = 0 then -149 else max ((Nat.log2 x.1.natAbs : Int) + x.2) (-126) - 23
/-- An exact value as an `FVal`. -/
def exactVal (x : Int × Int) : FVal := if x.1 = 0 then .zero false else .fin (x.1 < 0) x.1.natAbs x.2
def negExact (x : Int × Int) : Int × Int := (-x.1, x.2)

/-- Whether the lane abandons before a block: class 1 SIGN, 2 ABOVE, 3 BELOW; S, remaining elements, the exponent of the block's
scale product, and the remaining additions (09 R318). -/
def abandons (cls s rm : Nat) (k : Int) (adds theta : Nat) : Bool :=
  let v := decFp .f32 s
  if v.isNaN || v.isInf then false
  else
    let x := v.toInt
    let b : Int × Int := if cls = 3 then (0, 0) else ((rm : Int), k)
    let m := addExact ((x.1.natAbs : Int), x.2) b
    if m.1 != 0 && (Nat.log2 m.1.natAbs : Int) + m.2 ≥ 128 then false
    else
      let e : Int × Int := ((adds : Int) + 1, ulpLog m - 1)
      match cls with
      | 1 => (addExact (addExact x b) e).1 ≤ 0
      | 2 => fpLt (exactVal (addExact (addExact x b) e)) (decFp .f32 theta)
      | 3 => fpLt (decFp .f32 theta) (exactVal (addExact x (negExact e)))
      | _ => false

/-- The verdict NaN of an abandonment (03 R100, R101; 09 R319). -/
def verdictNaN (cls block : Nat) : Nat :=
  (if cls = 3 then 0 else 2 ^ 31) + 0x7F800000 + 2 ^ 21 + (cls - 1) * 2 ^ 18 + block % 2 ^ 18

end Sys2Proof.Machine
end

