-- ==== Sys2Proof/Machine/Matrix.lean ====
section
/-! DEFINITION. MTASK, MPROG, MTHR, MQUERY and the steps of a matrix task in tile and score mode (09 R305 to R322). -/
namespace Sys2Proof.Machine
open Sys2Proof

/-! ### The record's fields (09 R305) -/

def MatrixJob.w (m : MatrixJob) (i : Nat) : Word := m.words.toList.getD i 0
def MatrixJob.isScore (m : MatrixJob) : Bool := fld (m.w 0) 62 61 = 1
def MatrixJob.uslot (m : MatrixJob) : Nat := fld (m.w 0) 60 59
def MatrixJob.outFmt (m : MatrixJob) : Nat := fld (m.w 0) 58 57
def MatrixJob.sat (m : MatrixJob) : Bool := bitAt (m.w 0) 56
def MatrixJob.toc (m : MatrixJob) : Bool := bitAt (m.w 0) 55
def MatrixJob.cls (m : MatrixJob) : Nat := fld (m.w 0) 53 52
def MatrixJob.rows (m : MatrixJob) : Nat := fld (m.w 0) 39 35
def MatrixJob.cols (m : MatrixJob) : Nat := fld (m.w 0) 34 30
def MatrixJob.ringA (m : MatrixJob) : Nat := fld (m.w 0) 29 26
def MatrixJob.ringB (m : MatrixJob) : Nat := fld (m.w 0) 25 22
def MatrixJob.ringC (m : MatrixJob) : Nat := fld (m.w 0) 21 18
def MatrixJob.init (m : MatrixJob) : Bool := bitAt (m.w 0) 17
def MatrixJob.kn (m : MatrixJob) : Nat := fld (m.w 0) 15 0 + 1
def MatrixJob.stride (m : MatrixJob) : Nat := fld (m.w 5) 51 32
def MatrixJob.out (m : MatrixJob) : Nat := fld (m.w 5) 19 0
def MatrixJob.initAddr (m : MatrixJob) : Nat := fld (m.w 6) 19 0
def MatrixJob.const (m : MatrixJob) : Nat := fld (m.w 7) 31 0
def MatrixJob.thr (m : MatrixJob) : Word := m.w 8
def MatrixJob.qmax (m : MatrixJob) : Nat := fld (m.w 9) 60 53
def MatrixJob.qk (m : MatrixJob) : Nat := fld (m.w 9) 52 40 + 1
def MatrixJob.qscale (m : MatrixJob) : Nat := fld (m.w 9) 39 20
def MatrixJob.qaddr (m : MatrixJob) : Nat := fld (m.w 9) 19 0
def MatrixJob.ncand (m : MatrixJob) : Nat := fld (m.w 10) 31 0
/-- Steps of a tile task (09 R308). -/
def MatrixJob.steps (m : MatrixJob) : Nat := (m.kn + 31) / 32
/-- Query blocks of a score task (09 R314). -/
def MatrixJob.qblocks (m : MatrixJob) : Nat := (m.qk + fmtBlen m.fmta - 1) / fmtBlen m.fmta

def thetaNone : Nat := 0xFF800000

/-- The task of a record as read, with the strand's shadow registers in place of zero fields (09 R306). -/
def matrixOfWords (st : Strand) (b : List Byte) : MatrixJob :=
  let w := Vector.ofFn (fun i : Fin 16 => dwAt b (8 * i.val))
  let f : Nat → Nat → Nat := fun x d => if x = 0 then d else x
  { words := w, fmta := f (fld w[0] 51 46) st.fmta, fmtb := f (fld w[0] 45 40) st.fmtb,
    sca := if w[3] = 0 then st.sca else w[3], scb := if w[4] = 0 then st.scb else w[4], prog := none, step := 0, acc := [],
    lanes := [], theta := thetaNone, qscales := [], blocks := 0, taken := 0, published := 0, abandoned := 0, noVerdict := false,
    refresh := false }

/-- A named ring fails reason 0x04 (09 R300, R307). -/
def State.ringUnfit (s : State) (c : CoreId) (asid i size : Nat) : Bool :=
  match s.ring c i with
  | none => true
  | some r => r.asid != asid || r.isDeque || r.qin || r.qout || r.size < size

/-- The refusal reason of a record, checked at the engine's core: that of the first cause in the order of R307 (09 R300, R307; log 68). -/
def State.taskRefused (s : State) (c : CoreId) (asid : Nat) (m : MatrixJob) : Option Nat :=
  let ob := outBytes m.outFmt
  let badField :=
    fld (m.w 0) 62 61 ≥ 2 || m.outFmt = 3 || fmtBad m.fmta || fmtBad m.fmtb ||
    (if m.isScore then
      !(fmtType m.fmta = 4 || fmtType m.fmta = 5) || !(fmtType m.fmtb = 4 || fmtType m.fmtb = 5) ||
      m.fmta / 16 % 4 != m.fmtb / 16 % 4 || m.fmta / 16 % 4 = 0 ||
      ((m.cls = 1 || m.cls = 2) && m.uslot != 0) ||
      (m.cls = 3 && (m.uslot = 0 || (match m.prog with | none => true | some p => !p.mono)))
     else m.cls != 0)
  let badProg := m.uslot != 0 && m.prog.isNone
  let badRing :=
    if m.isScore then s.ringUnfit c asid m.ringA 16 || s.ringUnfit c asid m.ringC 16
    else s.ringUnfit c asid m.ringA (32 * frameBytes m.fmta) || s.ringUnfit c asid m.ringB (32 * frameBytes m.fmtb) ||
      (m.toc && s.ringUnfit c asid m.ringC (1024 * ob))
  let badRegion :=
    if m.isScore then m.qaddr + (m.qk + 31) / 32 * frameBytes m.fmta > 2 ^ 20 || m.qscale + m.qblocks > 2 ^ 20
    else (!m.toc && m.out + m.rows * m.stride + 32 * ob > 2 ^ 20) ||
      (m.init && m.initAddr + m.rows * m.stride + (m.cols + 1) * 4 > 2 ^ 20) || m.stride < (m.cols + 1) * ob
  if badField then some 3 else if badProg then some 5 else if badRing then some 4 else if badRegion then some 3 else none

/-- The program of slot USLOT, owned by the context (09 R306, R312). -/
def State.takeProg (s : State) (c : CoreId) (asid : Nat) (m : MatrixJob) : MatrixJob :=
  { m with prog := if m.uslot = 0 then none else match List.lookup m.uslot (s.core c).micro with
      | none => none
      | some p => if p.asid = asid then some p else none }

/-- The granules of OUT that MARKEMPTY marks: rows 0 to ROWS (09 R306 step 7). -/
def outGranules (c : CoreId) (m : MatrixJob) : List Nat :=
  ((span 0 (m.rows + 1)).map (fun r =>
    touchedGranules (coreBase c + 0x20000000 + m.out + r * m.stride) ((m.cols + 1) * outBytes m.outFmt))).flatten

/-- What a task request gives at the engine's core. -/
inductive TaskRes where
  | full
  | bad (reason : Nat)
  | ok (h : Word) (s : State)

/-- The granules that a task's MARKEMPTY names. -/
def toMark (c : CoreId) (m : MatrixJob) : List Nat := if !m.isScore && bitAt (m.w 0) 54 && !m.toc then outGranules c m else []

/-- Steps 4 to 8 of MTASK at the engine's core, but for the markings of step 7 (09 R306). -/
def State.enqueueTask (s : State) (c : CoreId) (r : Record) : TaskRes :=
  match r.job with
  | .copy _ =>
    (match (s.core c).freeRecord with
    | none => .full
    | some i => let x := s.takeRecord c i r; .ok x.1 x.2)
  | .matrix m =>
    let m := s.takeProg c r.asid m
    match s.taskRefused c r.asid m with
    | some x => .bad x
    | none =>
      match (s.core c).freeRecord with
      | none => .full
      | some i =>
        let x := (s.taskRefs c true (matrixRings m)).takeRecord c i { r with job := .matrix m }
        .ok x.1 x.2

/-- The markings of a task that came through a proxy (09 R306 step 7; log 9). -/
def State.markOut (s : State) (c : CoreId) (r : Record) : State :=
  match r.job with
  | .copy _ => s
  | .matrix m => (toMark c m).foldl (fun s g => (s.put c [] [(g, false)] (unitWriter r 0)).1) s

/-- A strand marks one granule of its own scratchpad empty, acknowledged, and goes on to the next at its next turn (09 R306 step 7). -/
def State.markOne (s : State) (c : CoreId) (n : Nat) (st : Strand) (g pos len : Nat) (r : Record) : State :=
  (s.put c [] [(g, false)] (unitWriter r 0)).1.block c n { st with bulk := some { img := [], len := len, pos := pos + 1 } } .mem

/-- MTASK (09 R306). -/
def execMtask (o : OpDA) (s : State) : Out :=
  .next (s.issue o.g none [o.a] [o.a] (some o.d) (fun c n st v commit s =>
    let s := s.drainQueue c st
    if !s.quiet c st false then s.block c n st .mem
    else if (v0 v).toNat % 64 != 0 then s.takeFault c n st (fAlign (v0 v) 64)
    else match s.readVa c n st (v0 v) 128 (memberInfo 3 5 0) with
      | .wait s => s
      | .fault f s => s.takeFault c n st f
      | .ok b s =>
        let m := matrixOfWords st b
        let r := recordOf c st (bitAt (m.w 0) 63) [m.w 1, m.w 2] (.matrix m)
        if !(s.core c).has 2 then (commit s).toProxy c n st 2 (.proxy o.d 2) (.proxyTask ⟨c, n, st.uid⟩ 1 r)
        else match s.enqueueTask c r with
          | .full => s.block c n st .msg
          | .bad reason => (commit s).giveBad c n st o.d reason
          | .ok _ _ =>
            let pos : Nat := match st.bulk with | none => 0 | some b => b.pos
            let l := toMark c m
            match l[pos]? with
            | some g => s.markOne c n st g pos l.length r
            | none =>
              match (commit s).enqueueTask c r with
              | .ok h s => s.giveHandle c n st o.d h
              | _ => s.block c n st .msg))

/-- A microprogram slot is loaded, or refused (09 R312). -/
def State.loadProg (s : State) (c : CoreId) (slot asid : Nat) (d0 d1 : Word) : Bool × State :=
  match slot, parseProg d0.toNat d1.toNat with
  | 0, _ => (false, s)
  | _, none => (false, s)
  | i, some (ops, mono) => (true, s.modCore c (fun k => { k with micro := tblSet k.micro i { ops := ops, mono := mono, asid := asid } }))

/-- MPROG (09 R312). -/
def execMprog (o : OpAB) (s : State) : Out :=
  .next (s.issue o.g none [o.a, o.b] [o.a, o.b] none (fun c n st v commit s =>
    if (v1 v).toNat % 16 != 0 then s.takeFault c n st (fAlign (v1 v) 16)
    else match s.readVa c n st (v1 v) 16 (memberInfo 3 5 1) with
      | .wait s => s
      | .fault f s => s.takeFault c n st f
      | .ok b s =>
        let slot := fld (v0 v) 1 0
        if !(s.core c).has 2 then
          (commit s).toProxy c n st 2 .proxyProg (.proxyProg ⟨c, n, st.uid⟩ 1 slot st.asid (dwAt b 0) (dwAt b 8))
        else
          let r := (commit s).loadProg c slot st.asid (dwAt b 0) (dwAt b 8)
          r.2.complete c n (st.setP3 r.1)))

/-- A score task that reads its threshold word (09 R320). -/
def MatrixJob.usesTheta (m : MatrixJob) : Bool := m.isScore && m.cls ≥ 2
/-- MTHR's signal at an engine (09 R321). -/
def State.signalTheta (s : State) (c : CoreId) (asid : Nat) (va : Word) : State :=
  s.modCore c (fun k => { k with records := k.records.map (fun x =>
    match x.2.job with
    | .copy _ => x
    | .matrix m =>
      if m.usesTheta && m.thr = va && x.2.asid = asid then (x.1, { x.2 with job := .matrix { m with refresh := true } }) else x) })

/-- MTHR (09 R321). -/
def execMthr (o : OpA) (s : State) : Out :=
  .next (s.issue o.g none [o.a] [o.a] none (fun c n st v commit s =>
    let s := s.drainQueue c st
    if !s.quiet c st false then s.block c n st .mem
    else if (s.core c).has 2 then ((commit s).signalTheta c st.asid (v0 v)).complete c n st
    else match s.proxyChain 2 5 c 0, s.nextProxy c 2 0 with
      | none, some d =>
        ((commit s).complete c n st).send c d false (s.tagOf c st.lslot) (.proxyThr 1 st.asid (v0 v))
      | some hops, _ => s.takeFault c n st (fFeature 2 hops)
      | _, none => s.takeFault c n st (fFeature 2 0)))

/-- The running matrix task of a core. -/
def Core.runningTask (k : Core) : Option (Nat × Record × MatrixJob) :=
  k.records.findSome? (fun x => match x.2.job with
    | .copy _ => none
    | .matrix m => if x.2.running then some (x.1, x.2, m) else none)

/-- MQUERY's answer by selector (09 R322). -/
def Core.query (k : Core) (sel : Nat) : Word :=
  let n : (Record → Bool) → Nat := fun p => (k.records.filter (fun x => p x.2)).length
  match sel with
  | 0 => wd ((32 - k.records.length) * 2 ^ 24 + n (fun r => !r.isCopy && r.queued) * 65536 +
      n (fun r => r.isCopy && r.queued) * 256 + n (fun r => r.isCopy && r.isPending))
  | 1 => match k.runningTask with
    | none => 0
    | some (i, r, _) => mkHandle 1 k.cfg.ln i r.seq
  | 2 => match k.runningTask with
    | some (_, _, m) => wd (if m.isScore then m.theta else thetaNone)
    | none => wd thetaNone
  | _ => match k.runningTask with
    | some (_, _, m) => if m.isScore then wd (m.abandoned * 2 ^ 32 + m.published) else 0
    | none => 0

/-- MQUERY (09 R322). -/
def execMquery (o : OpDA) (s : State) : Out :=
  .next (s.issue o.g none [o.a] [o.a] (some o.d) (fun c n st v commit s =>
    let sel := fld (v0 v) 1 0
    if (s.core c).has 2 then (commit s).writeBack c n st (some o.d) ((s.core c).query sel)
    else (commit s).toProxy c n st 2 (.proxyQuery o.d) (.proxyQuery ⟨c, n, st.uid⟩ 1 sel)))

/-! ### Issue (09 R296, R297) -/

def State.isEligible (s : State) (c : CoreId) (r : Record) : Bool :=
  match r.state with
  | .eligible => true
  | .waitin => (s.core c).inputsReady r
  | _ => false

/-- The record is first in issue order for its unit (09 R297). -/
def State.firstInOrder (s : State) (c : CoreId) (i : Nat) (r : Record) : Bool :=
  (s.core c).records.all (fun x =>
    x.1 = i || x.2.isCopy != r.isCopy || !x.2.queued ||
    (if x.2.prio = r.prio then x.2.order > r.order else r.prio || !s.isEligible c x.2))
def Core.unitFree (k : Core) (r : Record) : Bool :=
  if r.isCopy then k.copiesRunning < k.channels
  else k.runningTask.isNone && k.records.all (fun x => x.2.isCopy || !x.2.isPending)

/-- The threshold word of a score task: a NaN or a verdict NaN reads as −∞ (09 R320). -/
def State.readTheta (s : State) (c : CoreId) (r : Record) (m : MatrixJob) : UnitRead :=
  s.unitRead 2 c r .va m.thr 0 4
def thetaOf (b : List Byte) : Nat := let v := ofLe b; if (decFp .f32 v).isNaN then thetaNone else v

/-- Bytes of the scratchpad of the engine's core, or the fault of an uncorrectable granule. -/
def State.padRead (s : State) (c : CoreId) (off n : Nat) : PaRead := s.readPa (coreBase c + 0x20000000 + off) n 0 true

/-- The initial accumulators (09 R310). -/
def State.initAcc (s : State) (c : CoreId) (m : MatrixJob) : Nat → PaRead × List (Nat × Nat)
  | 0 => (.ok [] s, [])
  | r + 1 =>
    let x := s.initAcc c m r
    match x.1 with
    | .fault f s => (.fault f s, [])
    | .ok _ s =>
      match s.padRead c (m.initAddr + r * m.stride) ((m.cols + 1) * 4) with
      | .fault f s => (.fault f s, [])
      | .ok b s => (.ok [] s, x.2 ++ (span 0 (m.cols + 1)).map (fun j => (32 * r + j, ofLe ((b.drop (4 * j)).take 4))))

/-- A verdict NaN among numbers that the engine reads as FP32 (03 R103). -/
def vnInput (bits : Nat) : FaultInfo := fVerdict 3 bits

/-- The query's scale bytes disable the task's verdict (09 R314). -/
def MatrixJob.badScales (m : MatrixJob) (b : List Byte) : Bool := m.cls != 0 && b.any (fun x => x.toNat = 0xFF || x.toNat > m.qmax)
/-- One order-violation event of a task. -/
def State.orderEvent (s : State) (c : CoreId) (r : Record) (bad : Bool) : State :=
  if bad then s.modCore c (fun k => k.numEvent r.lslot 2 1) else s

/-- What a task reads when it starts (09 R310, R313, R314, R320). A CONST that is a VN faults here, before the first element, in every task that
runs a program of slots 1 to 3, whether or not an op names CONST; slot 0 reads no CONST (DEDUCED from 03 R103 and R313, log 60). -/
def State.startTask (s : State) (c : CoreId) (i : Nat) (r : Record) (m : MatrixJob) : State :=
  if m.prog.isSome && isVN .f32 m.const then s.recordFault c i r (vnInput m.const)
  else if !m.isScore then
    match (if m.init then s.initAcc c m (m.rows + 1) else (.ok [] s, [])) with
    | (.fault f s, _) => s.recordFault c i r f
    | (.ok _ s, acc) =>
      match acc.find? (fun x => isVN .f32 x.2) with
      | some x => s.recordFault c i r (vnInput x.2)
      | none => s.setRecord c i { r with state := .running, job := .matrix { m with acc := acc } }
  else
    match s.padRead c m.qscale m.qblocks with
    | .fault f s => s.recordFault c i r f
    | .ok b s =>
      let bad := m.badScales b
      let m : MatrixJob := { m with noVerdict := bad, qscales := b.map (fun x => x.toNat) }
      if m.usesTheta then
        match s.readTheta c r m with
        | .wait s => s
        | .fault f s => (s.orderEvent c r bad).recordFault c i r f
        | .ok t s =>
          (s.orderEvent c r bad).setRecord c i { r with state := .running, job := .matrix { m with theta := thetaOf t, refresh := false } }
      else (s.orderEvent c r bad).setRecord c i { r with state := .running, job := .matrix m }

/-- TASK_ISSUE (09 R297): an eligible record first in issue order starts on a free unit; a restored task that had run goes on before any
other starts (R327; log 31). -/
def execTaskIssue (o : EvCoreN) (s : State) : Out :=
  .next (match s.record o.c o.n with
    | none => s
    | some r =>
      if !r.isCopy && r.isPending then
        if s.unitHeld o.c r || (s.core o.c).runningTask.isSome then s else s.setRecord o.c o.n { r with state := .running }
      else if !r.queued || s.unitHeld o.c r || !s.isEligible o.c r || !s.firstInOrder o.c o.n r || !(s.core o.c).unitFree r then s
      else
        let h := mkHandle (if r.isCopy then 0 else 1) (s.core o.c).cfg.ln o.n r.seq
        let s := s.trace o.c (if r.isCopy then 1 else 3) (r.lslot.getD 0) h.toNat
        match r.job with
        | .copy j => s.setRecord o.c o.n { r with state := .running, job := .copy { j with started := true } }
        | .matrix m => s.startTask o.c o.n { r with state := .eligible } m)

/-! ### Tile mode (09 R308 to R310) -/

/-- Scale bytes of rows 0 to n − 1 for the blocks of one step; unscaled operands use 127 (09 R309). -/
def State.scales (s : State) (c : CoreId) (r : Record) (base : Word) (kn blen first count : Nat) :
    Nat → UnitRead × List (List Nat)
  | 0 => (.ok [] s, [])
  | row + 1 =>
    let x := s.scales c r base kn blen first count row
    match x.1 with
    | .ok _ s =>
      (match s.unitRead 3 c r .va base (row * ((kn + blen - 1) / blen) + first) count with
      | .ok b s => (.ok [] s, x.2 ++ [b.map (fun y => y.toNat)])
      | e => (e, []))
    | e => (e, [])

/-- Elements 0 to n − 1 of a frame. -/
def frameElems (fmt : Nat) (b : List Byte) (n : Nat) : List Nat :=
  let v := ofLe b
  (span 0 n).map (elemAt fmt v)

/-- One accumulator over the elements of one step, with the flags of each rounding. -/
def stepElem (m : MatrixJob) (ga gb : Nat) (a b : List Nat) (sa sb : List Nat) (acc : Nat) : Nat × List Flags :=
  match m.prog with
  | some p =>
    (List.zip (span 0 32) (List.zip a b)).foldl (fun x y =>
      let r := progElem p.ops m.const x.1 (decElem m.fmta y.2.1) (decElem m.fmtb y.2.2) (sa.getD (y.1 / ga) 127) (sb.getD (y.1 / gb) 127)
      (r.1, x.2 ++ r.2)) (acc, [])
  | none =>
    let g := min ga gb
    (span 0 (32 / g)).foldl (fun x i =>
      let pairs := (List.zip a b).drop (i * g) |>.take g
      if pairs.isEmpty then x
      else
        let sum := pairs.foldl (fun t y => t.add (decElem m.fmta y.1) (decElem m.fmtb y.2)) GSum.zero
        let u := sa.getD (i * g / ga) 127
        let v := sb.getD (i * g / gb) 127
        let r := accGranule x.1 sum ((u : Int) - 127 + ((v : Int) - 127)) (u = 0xFF || v = 0xFF)
        (r.1, also r.2 x.2)) (acc, [])

def anyVN (fmt : Nat) (rows : List (List Nat)) : Option Nat := rows.flatten.find? (fun x => elemVN fmt x)

/-- The numeric events of several roundings (03 R86). -/
def Core.numFlags (k : Core) (lslot : Option Nat) (l : List Flags) : Core := l.foldl (fun k f => numEvents k lslot (flagKinds f 0)) k

/-- The retired step: accumulators, flags, and both pops (09 R308). -/
def State.retireStep (s : State) (c : CoreId) (i : Nat) (r : Record) (m : MatrixJob) (a b : List (List Nat))
    (sa sb : List (List Nat)) : State :=
  let cells := ((span 0 (m.rows + 1)).map (fun x => (span 0 (m.cols + 1)).map (fun y => (x, y)))).flatten
  let res := cells.map (fun p =>
    (32 * p.1 + p.2, stepElem m (fmtBlen m.fmta) (fmtBlen m.fmtb) (a.getD p.1 []) (b.getD p.2 []) (sa.getD p.1 []) (sb.getD p.2 [])
      (tblGet 0 m.acc (32 * p.1 + p.2))))
  let s := s.modCore c (fun k => res.foldl (fun k x => k.numFlags r.lslot x.2.2) k)
  let w := unitWriter r 0
  let s := (s.ringPop c m.ringA 1 w).ringPop c m.ringB 1 w
  (s.setRecord c i { r with job := .matrix { m with step := m.step + 1, acc := res.map (fun x => (x.1, x.2.1)) } }).perf c 0x0B 1

/-- MATRIX_STEP (09 R308): record o.n takes one entry of ring A and one of ring B. -/
def execMatrixStep (o : EvCoreN) (s : State) : Out :=
  .next (match s.record o.c o.n with
    | none => s
    | some r =>
      match r.job with
      | .copy _ => s
      | .matrix m =>
        if !r.running || m.isScore || m.step ≥ m.steps || s.unitHeld o.c r then s
        else match s.ring o.c m.ringA, s.ring o.c m.ringB with
          | some qa, some qb =>
            if qa.avail = 0 || qb.avail = 0 then s
            else
              let n := min 32 (m.kn - 32 * m.step)
              let fa := frameBytes m.fmta
              let fb := frameBytes m.fmtb
              (match s.readPa (coreBase o.c + qa.addr qa.head) ((m.rows + 1) * fa) 0 true with
              | .fault f s => s.recordFault o.c o.n r f
              | .ok ba s =>
                match s.readPa (coreBase o.c + qb.addr qb.head) ((m.cols + 1) * fb) 0 true with
                | .fault f s => s.recordFault o.c o.n r f
                | .ok bb s =>
                  let a := (span 0 (m.rows + 1)).map (fun x => frameElems m.fmta ((ba.drop (x * fa)).take fa) n)
                  let b := (span 0 (m.cols + 1)).map (fun x => frameElems m.fmtb ((bb.drop (x * fb)).take fb) n)
                  match anyVN m.fmta a, anyVN m.fmtb b with
                  | some x, _ => s.recordFault o.c o.n r (vnInput x)
                  | none, some x => s.recordFault o.c o.n r (vnInput x)
                  | none, none =>
                    let cnt : Nat → Nat := fun l => (n + l - 1) / l
                    let la := fmtBlen m.fmta
                    let lb := fmtBlen m.fmtb
                    match (if fmtScaled m.fmta then s.scales o.c r m.sca m.kn la (32 * m.step / la) (cnt la) (m.rows + 1) else (.ok [] s, [])) with
                    | (.wait s, _) => s
                    | (.fault f s, _) => s.recordFault o.c o.n r f
                    | (.ok _ s, sa) =>
                      match (if fmtScaled m.fmtb then s.scales o.c r m.scb m.kn lb (32 * m.step / lb) (cnt lb) (m.cols + 1) else (.ok [] s, [])) with
                      | (.wait s, _) => s
                      | (.fault f s, _) => s.recordFault o.c o.n r f
                      | (.ok _ s, sb) => s.retireStep o.c o.n r m a b sa sb)
          | _, _ => s)

/-- Bytes written granule by granule, each one event that sets its granule full (09 R310). -/
def State.putGranules : Nat → State → CoreId → Nat → List Byte → Writer → State
  | 0, s, _, _, _, _ => s
  | f + 1, s, c, pa, b, w =>
    if b.isEmpty then s
    else
      let n := 16 - pa % 16
      State.putGranules f (s.put c [(pa, b.take n)] [(granule pa, true)] w).1 c (pa + n) (b.drop n) w

/-- Row x of the output in bytes, with the flags of each element and the row's NaRs. -/
def outRow (m : MatrixJob) (x : Nat) : List Byte × List Flags × Nat :=
  (span 0 (m.cols + 1)).foldl (fun t y =>
    let r := outConv m.outFmt m.sat (tblGet 0 m.acc (32 * x + y))
    (t.1 ++ leBytes (outBytes m.outFmt) r.1, also r.2.1 t.2.1, t.2.2 + b01 r.2.2)) ([], [], 0)

/-- TASK_DONE (09 R310, R311, R317): the output is written and the task ends. -/
def execTaskDone (o : EvCoreN) (s : State) : Out :=
  .next (match s.record o.c o.n with
    | none => s
    | some r =>
      match r.job with
      | .copy _ => s
      | .matrix m =>
        if !r.running || s.unitHeld o.c r then s
        else if m.isScore then (if m.published ≥ m.ncand then s.endRecord o.c o.n r .done else s)
        else if m.step < m.steps then s
        else
          let rows := (span 0 (m.rows + 1)).map (outRow m)
          let count : State → State := fun s =>
            s.modCore o.c (fun k => rows.foldl (fun k x => (k.numFlags r.lslot x.2.1).numEvent r.lslot 0 x.2.2) k)
          let w := unitWriter r 0
          if m.toc then
            match s.ring o.c m.ringC with
            | none => s
            | some q =>
              if q.free = 0 then s
              else
                let width := 32 * outBytes m.outFmt
                let img := (rows.map (fun x => x.1 ++ List.replicate (width - x.1.length) (0 : Byte))).flatten
                let img := img ++ List.replicate (32 * width - img.length) (0 : Byte)
                ((count s).ringAppend o.c m.ringC q img w).endRecord o.c o.n r .done
          else
            let s := (List.zip (span 0 (m.rows + 1)) rows).foldl (fun s x =>
              State.putGranules 16 s o.c (coreBase o.c + 0x20000000 + m.out + x.1 * m.stride) x.2.1 w) (count s)
            s.endRecord o.c o.n r .done)

/-! ### Score mode (09 R314 to R321) -/

/-- A result entry (09 R317). -/
def resultEntry (id : Word) (uflags score : Nat) (notLocal badId nanIn noVerdict abandoned : Bool) : List Byte :=
  leBytes 8 id.toNat ++ leBytes 4 score ++
    leBytes 4 (uflags * 65536 + 16 * b01 notLocal + 8 * b01 badId + 4 * b01 nanIn + 2 * b01 noVerdict + b01 abandoned)

/-- A lane publishes its result and is free (09 R317, R319). -/
def State.laneResult (s : State) (c : CoreId) (i : Nat) (r : Record) (m : MatrixJob) (lane : Nat) (entry : List Byte) (aband : Bool) :
    State :=
  match s.ring c m.ringC with
  | none => s
  | some q =>
    let s := s.ringAppend c m.ringC q entry (unitWriter r 0)
    let s := if aband then s.modCore c (fun k => k.numEvent r.lslot 1 1) else s
    s.setRecord c i { r with job := .matrix { m with published := m.published + 1, abandoned := m.abandoned + b01 aband,
                                                      lanes := m.lanes.filter (fun x => x.1 != lane) } }

/-- Every line of a record is translated before it is read: none local, all local, a wait or a fault (09 R317). -/
inductive Lines where
  | here (s : State)
  | away (s : State)
  | wait (s : State)
  | fault (f : FaultInfo) (s : State)
def State.linesHere (s : State) (c : CoreId) (r : Record) (va : Word) (first : Nat) : Nat → Lines
  | 0 => .here s
  | n + 1 =>
    match s.linesHere c r va first n with
    | .wait s => .wait s
    | .fault f s => .fault f s
    | x =>
      let s0 := match x with | .here s => s | .away s => s | .wait s => s | .fault _ s => s
      let was := match x with | .away _ => true | _ => false
      match s0.unitResolve c r .va va (64 * ((first + n : Nat) : Int)) kRead with
      | .wait s => .wait s
      | .fault f s => .fault f s
      | .ok pa _ s => if was || isHost pa || homeOf pa != c then .away s else .here s

/-- Tags break the order when a SCALE exceeds its predecessor's (09 R316). -/
def orderBroken : List Nat → Bool
  | a :: b :: t => b / 2 ^ 24 > a / 2 ^ 24 || orderBroken (b :: t)
  | _ => false

/-- The header and the tag table have been read: the lane starts, or ends at once on a bad BID (09 R316, R317). -/
def State.laneStart (s : State) (c : CoreId) (i : Nat) (r : Record) (m : MatrixJob) (lane : Nat) (va id : Word) (uflags : Nat)
    (tags : List Nat) : State :=
  let broken := orderBroken tags
  let ok := m.cls != 0 && !m.noVerdict && !broken && tags.all (fun t => t / 2 ^ 24 < 0xFF)
  let s := if m.cls != 0 && !m.noVerdict && broken then s.modCore c (fun k => k.numEvent r.lslot 2 1) else s
  let noV := m.cls != 0 && !ok
  if tags.any (fun t => t % 65536 ≥ m.qblocks) then
    s.laneResult c i r m lane (resultEntry id uflags Fmt.f32.nan false true false noV false) false
  else
    let l : Lane :=
      { va := va, id := id, uflags := uflags, nblk := tags.length, tags := tags, j := 0, s := 0, verdict := ok, noverdict := noV,
        nanin := false, badid := false }
    let m' : MatrixJob := { m with lanes := tblSet m.lanes lane l }
    s.setRecord c i { r with job := .matrix m' }

/-- The lines of a candidate's tag table, and of its data (09 R315). -/
def tagLines (nblk : Nat) : Nat := (nblk + 15) / 16
def MatrixJob.bb (m : MatrixJob) : Nat := fmtBlen m.fmtb * fmtBits m.fmtb / 8

/-- SCORE_LANE_TAKE (09 R316, R317): lane o.n takes the head of the candidate ring. -/
def execScoreLaneTake (o : EvCoreN) (s : State) : Out :=
  .next (match (s.core o.c).runningTask with
    | none => s
    | some (i, r, m) =>
      if !m.isScore || o.n ≥ 32 || (List.lookup o.n m.lanes).isSome || m.taken ≥ m.ncand || s.unitHeld o.c r then s
      else match s.ring o.c m.ringA, s.ring o.c m.ringC with
        | some qa, some qc =>
          if qa.avail = 0 || qc.free < m.lanes.length + 1 then s
          else
            (match s.readPa (coreBase o.c + qa.addr qa.head) 8 0 true with
            | .fault f s => s.recordFault o.c i r f
            | .ok b s =>
              let va := dwAt b 0
              match s.linesHere o.c r va 0 1 with
              | .wait s => s
              | .fault f s => s.recordFault o.c i r f
              | .away s =>
                (s.ringPop o.c m.ringA 1 (unitWriter r 0)).laneResult o.c i r { m with taken := m.taken + 1 } o.n
                  (resultEntry 0 0 Fmt.f32.nan true false false (m.cls != 0 && m.noVerdict) false) false
              | .here s =>
                match s.unitRead 2 o.c r .va va 0 64 with
                | .wait s => s
                | .fault f s => s.recordFault o.c i r f
                | .ok h s =>
                  let id := dwAt h 0
                  let nblk := fld (dwAt h 8) 15 0
                  let uf := fld (dwAt h 16) 15 0
                  let m' := { m with taken := m.taken + 1 }
                  match s.linesHere o.c r va 1 (tagLines nblk + (nblk * m.bb + 63) / 64) with
                  | .wait s => s
                  | .fault f s => s.recordFault o.c i r f
                  | .away s =>
                    (s.ringPop o.c m.ringA 1 (unitWriter r 0)).laneResult o.c i r m' o.n
                      (resultEntry id uf Fmt.f32.nan true false false (m.cls != 0 && m.noVerdict) false) false
                  | .here s =>
                    match s.unitRead (nblk / 16 + 3) o.c r .va va 64 (4 * nblk) with
                    | .wait s => s
                    | .fault f s => s.recordFault o.c i r f
                    | .ok t s =>
                      (s.ringPop o.c m.ringA 1 (unitWriter r 0)).laneStart o.c i r m' o.n va id uf
                        ((span 0 nblk).map (fun j => ofLe ((t.drop (4 * j)).take 4))))
        | _, _ => s)

/-- The query elements a block covers (09 R315). -/
def MatrixJob.covers (m : MatrixJob) (bid : Nat) : Nat :=
  let l := fmtBlen m.fmta
  min ((bid + 1) * l) m.qk - bid * l

/-- One block accumulated into s (09 R313, R316): the new value, the flags of each rounding, NaN data, and a negative term. -/
def scoreBlock (m : MatrixJob) (q d : List Nat) (qs scale s : Nat) : Nat × List Flags × Bool × Bool :=
  let pairs := List.zip q d
  match m.prog with
  | some p =>
    pairs.foldl (fun x y =>
      let a := decElem m.fmta y.1
      let b := decElem m.fmtb y.2
      let r := progElem p.ops m.const x.1 a b qs scale
      (r.1, x.2.1 ++ r.2, x.2.2.1 || a.isNaN || b.isNaN || qs = 0xFF || scale = 0xFF,
        x.2.2.2 || (p.mono && fpLt (decFp .f32 r.1) (decFp .f32 x.1) && !(decFp .f32 r.1).isNaN && !(decFp .f32 x.1).isNaN)))
      (s, [], false, false)
  | none =>
    let sum := pairs.foldl (fun t y => t.add (decElem m.fmta y.1) (decElem m.fmtb y.2)) GSum.zero
    let ns := qs = 0xFF || scale = 0xFF
    let r := accGranule s sum ((scale : Int) - 127 + ((qs : Int) - 127)) ns
    (r.1, also r.2 [], sum.nan || ns, false)

/-- A read of lines of a candidate: nothing is read of a line homed elsewhere (09 R317). -/
inductive LineRead where
  | ok (bytes : List Byte) (s : State)
  | away (s : State)
  | wait (s : State)
  | fault (f : FaultInfo) (s : State)
def State.lineRead (s : State) (c : CoreId) (r : Record) (va : Word) (off n : Nat) : LineRead :=
  match s.linesHere c r va (off / 64) ((off % 64 + n + 63) / 64) with
  | .wait s => .wait s
  | .fault f s => .fault f s
  | .away s => .away s
  | .here s =>
    match s.unitRead (n / 64 + 3) c r .va va off n with
    | .wait s => .wait s
    | .fault f s => .fault f s
    | .ok b s => .ok b s

/-- SCORE_BLOCK (09 R316, R318, R319): lane o.n decides, then accumulates its next block or publishes. A restored lane reads its
tag table again first, and a restored task its query scales. A line that is homed elsewhere by now gives NOTLOCAL (09 R317). -/
def execScoreBlock (o : EvCoreN) (s : State) : Out :=
  .next (match (s.core o.c).runningTask with
    | none => s
    | some (i, r, m) =>
      if !m.isScore || s.unitHeld o.c r then s
      else match List.lookup o.n m.lanes with
        | none => s
        | some l =>
          if l.j ≥ l.nblk then
            s.laneResult o.c i r m o.n
              (resultEntry l.id l.uflags l.s false false (l.nanin && (decFp .f32 l.s).isNaN) l.noverdict false) false
          else if l.tags.length != l.nblk then
            (match s.lineRead o.c r l.va 64 (4 * l.nblk) with
            | .wait s => s
            | .fault f s => s.recordFault o.c i r f
            | .away s =>
              s.laneResult o.c i r m o.n (resultEntry l.id l.uflags Fmt.f32.nan true false false l.noverdict false) false
            | .ok t s =>
              let l' : Lane := { l with tags := (span 0 l.nblk).map (fun j => ofLe ((t.drop (4 * j)).take 4)) }
              let m' : MatrixJob := { m with lanes := tblSet m.lanes o.n l' }
              s.setRecord o.c i { r with job := .matrix m' })
          else if m.qscales.length != m.qblocks then
            (match s.padRead o.c m.qscale m.qblocks with
            | .fault f s => s.recordFault o.c i r f
            | .ok b s =>
              let m' : MatrixJob := { m with qscales := b.map (fun x => x.toNat) }
              s.setRecord o.c i { r with job := .matrix m' })
          else
            let tag := l.tags.getD l.j 0
            let scale : Nat := tag / 2 ^ 24
            let bid : Nat := tag % 65536
            let rm := ((l.tags.drop l.j).map (fun t => m.covers (t % 65536))).sum
            let k : Int := (scale : Int) - 127 + ((m.qmax : Int) - 127) + maxposLog m.fmta + maxposLog m.fmtb
            if l.verdict && abandons m.cls l.s rm k (l.nblk - l.j) m.theta then
              s.laneResult o.c i r m o.n
                (resultEntry l.id l.uflags (verdictNaN m.cls l.j) false false false l.noverdict true) true
            else
              let len := fmtBlen m.fmta
              let fb := frameBytes m.fmta
              (match s.lineRead o.c r l.va (64 + 64 * tagLines l.nblk + l.j * m.bb) m.bb with
              | .wait s => s
              | .fault f s => s.recordFault o.c i r f
              | .away s =>
                s.laneResult o.c i r m o.n (resultEntry l.id l.uflags Fmt.f32.nan true false false l.noverdict false) false
              | .ok d s =>
                match s.padRead o.c (m.qaddr + bid * len / 32 * fb) fb with
                | .fault f s => s.recordFault o.c i r f
                | .ok q s =>
                  let n := m.covers bid
                  let qe := ((frameElems m.fmta q 32).drop (bid * len % 32)).take n
                  let de := frameElems m.fmtb d n
                  let x := scoreBlock m qe de (m.qscales.getD bid 127) scale l.s
                  let neg := x.2.2.2 && l.verdict
                  let s := s.modCore o.c (fun k =>
                    (k.numFlags r.lslot x.2.1).numEvent r.lslot 2 (b01 neg))
                  let l' : Lane := { l with j := l.j + 1, s := x.1, nanin := l.nanin || x.2.2.1, verdict := l.verdict && !neg,
                                            noverdict := l.noverdict || neg }
                  let again := m.refresh || (m.usesTheta && (m.blocks + 1) % 256 = 0)
                  let m' : MatrixJob := { m with lanes := tblSet m.lanes o.n l', blocks := m.blocks + 1, refresh := again }
                  s.setRecord o.c i { r with job := .matrix m' }))

/-- θ after a read: a NaN is ignored and θ never falls (09 R320). -/
def thetaMax (old new : Nat) : Nat :=
  if (decFp .f32 new).isNaN || !fpLt (decFp .f32 old) (decFp .f32 new) then old else new

/-- THETA_REFRESH (09 R320): the task of record o.n reads its threshold word again. -/
def execThetaRefresh (o : EvCoreN) (s : State) : Out :=
  .next (match s.record o.c o.n with
    | none => s
    | some r =>
      match r.job with
      | .copy _ => s
      | .matrix m =>
        if !r.running || !m.refresh || !m.usesTheta || s.unitHeld o.c r then s
        else match s.readTheta o.c r m with
          | .wait s => s
          | .fault f s => s.recordFault o.c o.n r f
          | .ok b s =>
            s.setRecord o.c o.n { r with job := .matrix { m with refresh := false, theta := thetaMax m.theta (ofLe b) } })

end Sys2Proof.Machine
end

