-- ==== Sys2Proof/Machine/LoadStore.lean ====
section
/-! DEFINITION. Scalar loads and stores, LDS, atomics, reductions and waits on words (05 R147 to R157, R170). -/
namespace Sys2Proof.Machine
open Sys2Proof

def feLoadAct : FeLoad → FeAct
  | .none => .none | .fe => .wait | .fec => .waitClear | .ft => .test
def feStoreAct : FeStore → FeAct
  | .none => .none | .ff => .fill | .ef => .waitFill

/-- A scalar memory instruction: the address in the first source. -/
def State.memOp (s : State) (g : Guard) (srcs hard : List Reg) (dst : Option Reg) (plan : Strand → List Word → State → Plan) :
    State :=
  s.issue g none srcs hard dst (fun c n st v commit s => s.access c n st (v0 v) (plan st v s) commit)

/-- LD and LDU (05 R147, R148). -/
def loadPlan (o : OpLoad) (major : Nat) (signed : Bool) : Plan :=
  { form := o.form, kind := kRead, size := sizeBytes o.size, off := o.imm * sizeBytes o.size, info := memberInfo 0 major 0,
    cls := .loadStore, fe := o.fe != .none, rmw := false, rl := false, aq := o.aq,
    op := .load (sizeBytes o.size) (feLoadAct o.fe), cont := .load o.d (sizeBytes o.size) signed (o.fe = .ft),
    limit := none, fpOperand := none }
def execLd (o : OpLoad) (s : State) : Out := .next (s.memOp o.g [o.a] [o.a] (some o.d) (fun _ _ _ => loadPlan o 12 true))
def execLdu (o : OpLoad) (s : State) : Out := .next (s.memOp o.g [o.a] [o.a] (some o.d) (fun _ _ _ => loadPlan o 13 false))

/-- ST (05 R148): local and .EF stores are made in place, others are posted. -/
def storePlan (o : OpStore) (data : Word) : Plan :=
  let z := sizeBytes o.size
  { form := o.form, kind := kWrite, size := z, off := o.imm * z, info := memberInfo 0 14 0, cls := .loadStore,
    fe := o.fe != .none, rmw := false, rl := o.rl, aq := false,
    op := (match o.fe with
      | .ef => .store z data .waitFill
      | .ff => .post .stff z data
      | .none => .post .st z data),
    cont := .store, limit := none, fpOperand := none }
def execSt (o : OpStore) (s : State) : Out :=
  .next (s.memOp o.g [o.a, o.d] [o.a] none (fun _ v _ => storePlan o (v1 v)))

/-- LDS (05 R153). -/
def ldsPlan (o : OpLoad) : Plan :=
  { loadPlan o 15 true with cls := .never, cont := .lds 0 o.d }
def execLds (o : OpLoad) (s : State) : Out := .next (s.memOp o.g [o.a] [o.a] (some o.d) (fun _ _ _ => ldsPlan o))

/-- AMO (05 R155). -/
def amoPlan (form : Form) (ord : AmoOrd) (size : Size) (fn : Nat) (op : AmoOp) (d : Reg) (b cc : Word) : Plan :=
  let z := sizeBytes size
  { form := form, kind := kAtomic, size := z, off := 0, info := memberInfo 0 16 fn, cls := .atomic, fe := false, rmw := true,
    rl := ord = .ar, aq := ord != .plain, op := .amo op z b cc, cont := .amo d z (op = .cas), limit := none,
    fpOperand := none }
def execAmoSwap (o : OpAmo) (s : State) : Out :=
  .next (s.memOp o.g [o.a, o.b] [o.a, o.b] (some o.d) (fun _ v _ => amoPlan o.form o.ord o.size 0 .swap o.d (v1 v) 0))
def execAmoCas (o : OpAmoC) (s : State) : Out :=
  .next (s.memOp o.g [o.a, o.b, o.c] [o.a, o.b, o.c] (some o.d) (fun _ v _ =>
    amoPlan o.form o.ord o.size 1 .cas o.d (v1 v) (v2 v)))
def execAmoAdd (o : OpAmo) (s : State) : Out :=
  .next (s.memOp o.g [o.a, o.b] [o.a, o.b] (some o.d) (fun _ v _ => amoPlan o.form o.ord o.size 2 .add o.d (v1 v) 0))
def execAmoMax (o : OpAmo) (s : State) : Out :=
  .next (s.memOp o.g [o.a, o.b] [o.a, o.b] (some o.d) (fun _ v _ => amoPlan o.form o.ord o.size 3 .max o.d (v1 v) 0))

/-- RED (05 R157). `num` is the operation number, 4 × d + fn. -/
def redPlan (o : OpRed) (num : Nat) (op : RedOp) (b : Word) : Plan :=
  let z := sizeBytes o.size
  { form := o.form, kind := kReduce, size := z, off := 0, info := memberInfo 0 17 (num % 4), cls := .never, fe := false,
    rmw := true, rl := o.rl, aq := false, op := .post (.red op) z b, cont := .store, limit := none,
    fpOperand := if op.isFp then some b else none }
def State.redOp (s : State) (o : OpRed) (num : Nat) (op : RedOp) : State :=
  s.memOp o.g [o.a, o.b] [o.a, o.b] none (fun _ v _ => redPlan o num op (v1 v))
def execRedAdd (o : OpRed) (s : State) : Out := .next (s.redOp o 0 .add)
def execRedAnd (o : OpRed) (s : State) : Out := .next (s.redOp o 1 .and)
def execRedOr (o : OpRed) (s : State) : Out := .next (s.redOp o 2 .or)
def execRedXor (o : OpRed) (s : State) : Out := .next (s.redOp o 3 .xor)
def execRedMin (o : OpRed) (s : State) : Out := .next (s.redOp o 4 .min)
def execRedMax (o : OpRed) (s : State) : Out := .next (s.redOp o 5 .max)
def execRedMinu (o : OpRed) (s : State) : Out := .next (s.redOp o 6 .minu)
def execRedMaxu (o : OpRed) (s : State) : Out := .next (s.redOp o 7 .maxu)
def execRedFadd (o : OpRed) (s : State) : Out := .next (s.redOp o 8 .fadd)
def execRedFmax (o : OpRed) (s : State) : Out := .next (s.redOp o 9 .fmax)
def execRedFmin (o : OpRed) (s : State) : Out := .next (s.redOp o 10 .fmin)

/-- WAIT* (05 R170). -/
def State.waitPlan (s : State) (form : Form) (size : Size) (fn : Nat) (op : WaitOp) (st : Strand) (v limit : Word) : Plan :=
  let z := sizeBytes size
  { form := form, kind := kRead, size := z, off := 0, info := memberInfo 0 23 fn, cls := .never, fe := false, rmw := false,
    rl := false, aq := false, op := .wait op z v, cont := .wait (expiryInfo 0 23 fn z) v, limit := s.limitAt st limit,
    fpOperand := none }
def State.waitOp (s : State) (o : OpWait) (fn : Nat) (op : WaitOp) : State :=
  s.memOp o.g [o.a, o.b, o.d] [o.a, o.b, o.d] none (fun st v s => s.waitPlan o.form o.size fn op st (v1 v) (v2 v))
def execWaiteq (o : OpWait) (s : State) : Out := .next (s.waitOp o 0 .eq)
def execWaitne (o : OpWait) (s : State) : Out := .next (s.waitOp o 1 .ne)
def execWaitge (o : OpWait) (s : State) : Out := .next (s.waitOp o 2 .ge)
def execWaitany (o : OpWaitAny) (s : State) : Out :=
  .next (s.memOp o.g [o.a, o.d] [o.a, o.d] none (fun st v s => s.waitPlan o.form o.size 3 .any st 0 (v1 v)))

end Sys2Proof.Machine
end

