-- ==== Sys2Proof/Machine/VectorMem.lean ====
section
/-! DEFINITION. Vector memory access: loads and stores of registers, strided and tapered, gather and scatter (08 R254, R263 to R267,
R272). One event is made in each turn of the strand; each event is made at its home at once (log 9). -/
namespace Sys2Proof.Machine
open Sys2Proof

/-! ### One event of a vector instruction (08 R254) -/

/-- Where an access of the unit goes. -/
inductive Reach where
  | go (pa : Nat)
  /-- the home is stopped by its debug module (15 R445) -/
  | held
  | refused
  | dead

/-- The router's answer to an access from core c (07 R232; 15 R445; 16 R454, R458). -/
def State.reach (s : State) (c : CoreId) (pa : Nat) : Reach :=
  if isHost pa then (if s.hostDown pa then .dead else .go pa)
  else if s.waferDown c.w (homeOf pa).w then .dead
  else if s.farRefuses c pa then .refused
  else match s.landsAt 9 pa with
    | none => .refused
    | some pa => if homeOf pa != c && (s.core (homeOf pa)).dbg.stop then .held else .go pa

/-- What an event gives: the bytes read; it waits; it faults. A write that was refused is in the strand's failure record. -/
inductive VGot where
  | ok (bytes : List Byte) (st : Strand) (s : State)
  | wait (s : State)
  | fault (f : FaultInfo) (s : State)

/-- The description of the event of a member, by its major and fn, for the checks of 05 R143 and the INFO of 06 R187. -/
def vecPlan (mem : Nat × Nat) (form : Form) (kind width : Nat) (fe rmw : Bool) : Plan :=
  { form := form, kind := kind, size := width, off := 0, info := memberInfo 2 mem.1 mem.2, cls := .never, fe := fe, rmw := rmw,
    rl := false, aq := false, op := .load width .none, cont := .store, limit := none, fpOperand := none }

/-- Earlier events of the strand to that home are made first (05 R152). -/
def Strand.mustDrain (st : Strand) (h : CoreId) : Bool := !st.lds.isEmpty || st.posts.any (fun p => homeOf p.pa = h)

/-- The full-empty granules of a part: `fresh` when its first granule has not been handled (08 R265). -/
def partGranules (pa n : Nat) (fresh : Bool) : List Nat := (touchedGranules pa n).filter (fun g => fresh || 16 * g ≥ pa)

/-- The part of a vector event that precedes it: Resolve, the checks, and the order of the strand's events. -/
def State.vecEvent (s : State) (c : CoreId) (st : Strand) (p : Plan) (base : Word) (off : Int)
    (k : Nat → Word → Nat → State → VGot) : VGot :=
  match s.resolve (placeCtx c st) st p.form base off p.kind p.info with
  | .wait s => .wait s
  | .fault f s => .fault f s
  | .ok pa leaf s =>
    let va := if Form.isVa p.form then Word.ofExact (base.toNat + off) else wd pa
    match planFault p va pa leaf with
    | some f => .fault f s
    | none => if st.mustDrain (homeOf pa) then .wait s else k pa leaf va.toNat s

/-- A read of n bytes (08 R263, R266). -/
def State.vecRead (s : State) (c : CoreId) (n : Nat) (st : Strand) (p : Plan) (base : Word) (off : Int) (len : Nat) (lq : FeLoad)
    (fresh : Bool) : VGot :=
  s.vecEvent c st p base off (fun pa leaf _ s =>
    match s.reach c pa with
    | .held => .wait s
    | .refused => .fault (fAccess (wd pa) 0) s
    | .dead => .fault (fAccess (wd pa) 0) s
    | .go pa' =>
      if isHost pa' then .ok (memRead s.mem pa' len) st s
      else if inControl (offOf pa') then
        let s' := if isPrivateArea (offOf pa' - 0x30000000) then { s with free := s.free + 1 } else s
        .ok ((span pa' len).map (fun a => BitVec.ofNat 8 (s.ctlRead a 1).1.toNat)) st s'
      else
        let r : MemReq := { pa := pa', va := 0, op := .load 8 (feLoadAct lq), cont := .store, aq := p.aq, rl := false, leaf := leaf,
                            limit := none }
        let t := s.nearestCopy c st r
        let q := s.copySeq t.1 leaf
        let t := if t.2 != pa' && floorRejects st.floor (lfMidx leaf) q then (homeOf pa', pa') else t
        let s := if t.1 = c then s else (s.perf c 0x03 1).trip c t.1 st.lslot
        let s := s.closeLines t.1 t.2 len
        let gs := if lq = .none then [] else partGranules t.2 len fresh
        if gs.any (fun g => !s.full (16 * g)) then .wait s
        else match s.badGranule t.2 len, lfExpendable leaf with
          | some g, false => .fault (fBadRead (16 * g)) s
          | bad, _ =>
            let bytes := (span t.2 len).map (fun a => if bad.isSome && setHas s.ecc (granule a) then 0 else memGet s.mem a)
            let s := if bad.isSome then s.countError t.1 2 else s.correct t.1 t.2 len
            let st := if lfMirror leaf then { st with floor := floorRaise st.floor (lfMidx leaf) (s.copySeq t.1 leaf) } else st
            match lq with
            | .fec =>
              let e := s.put t.1 [] (gs.map (fun g => (g, false))) (strandWriter c n st leaf)
              .ok bytes (st.watched st.pc e.2) e.1
            | _ => .ok bytes st s)

/-- A refused or lost vector write enters the failure record (08 R254). -/
def Strand.vecLost (st : Strand) (dead : Bool) (va : Nat) : Strand := { st with failrec := st.failrec.add dead va }

/-- A write of runs given by their offsets from the address (08 R263). -/
def State.vecWrite (s : State) (c : CoreId) (n : Nat) (st : Strand) (p : Plan) (base : Word) (off : Int)
    (runs : List (Nat × List Byte)) (len : Nat) (fe : FeStore) (fresh : Bool) : VGot :=
  s.vecEvent c st p base off (fun pa leaf va s =>
    match s.reach c pa with
    | .held => .ok [] (st.vecLost false va) s
    | .refused => .ok [] (st.vecLost false va) s
    | .dead => .ok [] (st.vecLost true va) s
    | .go pa' =>
      let rs := runs.map (fun r => (pa' + r.1, r.2))
      let s := if isHost pa' || (homeOf pa').w != c.w then s.fray c st.asid st.lslot st.stat.log else s
      if isHost pa' then .ok [] st { s with mem := writeRuns s.mem rs }
      else if inControl (offOf pa') then
        .ok [] st ((rs.map (fun r => (span 0 r.2.length).map (fun i => (r.1 + i, r.2.getD i 0)))).flatten.foldl
          (fun s x => s.ctlStore x.1 1 (wd x.2.toNat) (strandWriter c n st leaf)) s)
      else
        let h := homeOf pa'
        let gs := if fe = .none then [] else partGranules pa' len fresh
        if fe = .ef && gs.any (fun g => s.full (16 * g)) then .wait s
        else
          let s := if h = c then s else (s.perf c 0x03 1).trip c h st.lslot
          let e := s.put h rs (gs.map (fun g => (g, true))) (strandWriter c n st leaf)
          .ok [] (st.watched st.pc e.2) e.1)

/-- A reduction of one lane (08 R267; 13 R413). -/
def State.vecRed (s : State) (c : CoreId) (st : Strand) (p : Plan) (base : Word) (op : RedOp) (data : Nat) : VGot :=
  s.vecEvent c st p base 0 (fun pa leaf va s =>
    match s.reach c pa with
    | .held => .ok [] (st.vecLost false va) s
    | .refused => .ok [] (st.vecLost false va) s
    | .dead => .ok [] (st.vecLost true va) s
    | .go pa' =>
      let s := if isHost pa' || (homeOf pa').w != c.w then s.fray c st.asid st.lslot st.stat.log else s
      if isHost pa' then
        let r : MemReq := { pa := pa', va := wd va, op := .post (.red op) 4 (wd data), cont := .store, aq := false, rl := false,
                            leaf := leaf, limit := none }
        match (s.hostFlags c st.lslot r).hostServe r with
        | none => .wait s
        | some (_, s) => .ok [] st s
      else
        let h := homeOf pa'
        let s := if h = c then s else (s.perf c 0x03 1).trip c h st.lslot
        .ok [] st (s.redEnter h { pa := pa', op := op, size := 4, data := data, asid := st.asid, logged := st.stat.log, leaf := leaf,
                                  lslot := st.lslot, part := s.partOf c, uid := st.uid }))

/-! ### The frame of a holding memory instruction -/

/-- The progress a holding instruction starts from, with the unit of its progress points: 16 elements of a chunk, 32 of a frame,
one lane (06 R201; 08 R272). -/
def holdStart (unit : Nat) (st : Strand) (x : VecCtx) (_ : Elem) (vals : List Word) : VProg × VecCtx :=
  ({ unit := unit, pos := (st.pix.getD 0) % 512, rerun := false, vals := vals, buf := [], fl := Flags.none }, x)

/-- Turn an event into the strand's next turn: it made progress, waits, or faults. -/
def State.vecTurn (s : State) (c : CoreId) (n : Nat) (st : Strand) (g : VGot)
    (k : List Byte → Strand → State → State) : State :=
  match g with
  | .ok b st s => k b st s
  | .wait s => s.block c n st .mem
  | .fault f s => s.vFault c n st f

/-- The instruction goes on at an element. -/
def State.vecNext (s : State) (c : CoreId) (n : Nat) (st : Strand) (h : VProg) (pos : Nat) : State :=
  s.block c n { st with hold := some { h with pos := pos } } .mem

/-- The queues that hold the strand's reductions drain for a Release of .RL. -/
def State.vecDrain (s : State) (c : CoreId) (st : Strand) (rl : Bool) : State := if rl then s.drainQueue c st else s
/-- An earlier LDS.AQ, or the Release of .RL, holds the first event (05 R151; 08 R254). -/
def State.vecHeld (s : State) (c : CoreId) (st : Strand) (rl : Bool) : Bool :=
  st.lds.any (fun l => l.aq) || (rl && !s.quiet c st true)

/-! ### VLD, VST, VLDS, VSTS (08 R263, R264) -/

/-- The elements of the next event: from the first active element at or above pos, those of its chunk and of its granule. -/
def VecCtx.group (x : VecCtx) (m : Option (Fin 4)) (pos : Nat) (addr : Nat → Int) (single : Bool) : List Nat :=
  match (x.act m).filter (fun j => j ≥ pos) with
  | [] => []
  | j :: t => j :: (if single then [] else t.filter (fun i => i / 16 = j / 16 && addr i / 16 = addr j / 16))

/-- A move between elements and memory: one event, over the elements that share its granule and chunk. -/
def State.vecLinear (s : State) (c : CoreId) (n : Nat) (st : Strand) (i : Nat) (x : VecCtx) (t : Elem) (h : VProg) (got : Nat)
    (mem : Nat × Nat) (form : Form) (m : Option (Fin 4)) (d : Reg) (base : Word) (off step : Int) (single : Bool) (store : Bool) (ord : Bool)
    (lfe : FeLoad) (sfe : FeStore) : State :=
  let w := elemBytes t
  let ea := Word.ofExact (base.toNat + off)
  if !single && ea.toNat % w != 0 then s.vFault c n st (fAlign ea w)
  else
    let s := s.vecDrain c st (store && ord)
    if s.vecHeld c st (store && ord) then s.block c n st .mem
    else match x.group m h.pos (fun j => base.toNat + off + step * j) single with
    | [] => if got ≥ chunksOf x.vl then s.vDone c n st none Flags.none 0 else s.block c n st .mem
    | j :: js =>
      if got ≤ j / 16 then s.block c n st .mem
      else
        let all := j :: js
        let last := all.getLastD j
        let next := if (x.act m).any (fun e => e > last && e / 16 = last / 16) then last + 1 else (last / 16 + 1) * 16
        let len := (last - j + 1) * w
        let p := vecPlan mem form (if store then kWrite else kRead) w (if store then sfe != .none else lfe != .none) false
        if store then
          let runs := all.map (fun e => ((e - j) * w, leBytes w (x.elem t d e)))
          s.vecTurn c n st (s.vecWrite c n st p base (off + step * j) runs len sfe true) (fun _ st s =>
            s.vecNext c n st h next)
        else
          s.vecTurn c n st (s.vecRead c n st { p with aq := ord } base (off + step * j) len lfe true) (fun b st s =>
            (s.setVctx c i (x.puts d (all.map (fun e => (e, ofLe ((b.drop ((e - j) * w)).take w)))))).vecNext c n st h next)

/-- VLD and VST stop at chunk boundaries; the others between elements. -/
def execVld (o : OpVLoad) (s : State) : Out :=
  .next (s.vHold o.g o.t typesMem [o.a] none (fun _ _ => none) (holdStart 16) (fun c n st i x t h got s =>
    s.vecLinear c n st i x t h got (9, 0) o.form o.m o.d (v0 h.vals) (o.imm * 64) (elemBytes t) false false o.aq o.fe .none))
def execVst (o : OpVStore) (s : State) : Out :=
  .next (s.vHold o.g o.t typesMem [o.a] none (fun _ _ => none) (holdStart 16) (fun c n st i x t h got s =>
    s.vecLinear c n st i x t h got (10, 0) o.form o.m o.d (v0 h.vals) (o.imm * 64) (elemBytes t) false true o.rl .none o.fe))
def execVlds (o : OpVLoadB) (s : State) : Out :=
  .next (s.vHold o.g o.t typesMem [o.a, o.b] none (fun _ _ => none) (holdStart 16) (fun c n st i x t h got s =>
    s.vecLinear c n st i x t h got (11, 0) o.form o.m o.d (v0 h.vals) 0 (v1 h.vals).sval true false o.aq o.fe .none))
def execVsts (o : OpVStoreB) (s : State) : Out :=
  .next (s.vHold o.g o.t typesMem [o.a, o.b] none (fun _ _ => none) (holdStart 16) (fun c n st i x t h got s =>
    s.vecLinear c n st i x t h got (11, 1) o.form o.m o.d (v0 h.vals) 0 (v1 h.vals).sval true true o.rl .none o.fe))

/-! ### VLDB, VSTB (03 R94 to R96; 08 R265) -/

/-- Bits of a tapered element, and bytes of a frame of 32. -/
def taperN (t : Elem) : Nat := if t = .t8 then 8 else 6
def taperFrame (t : Elem) : Nat := 4 * taperN t
/-- The parts of a frame, each in one line: offset and length (03 R95). -/
def frameParts (a n : Nat) : List (Nat × Nat) :=
  let k := min n (64 - a % 64)
  if k < n then [(0, k), (k, n - k)] else [(0, n)]

/-- Position pos means frame pos / 32, and its second part when pos % 32 is 16. -/
def framePart (a n pos : Nat) : Nat × Nat × Bool :=
  match frameParts a n, pos % 32 with
  | [p, _], 0 => (p.1, p.2, false)
  | [_, q], _ => (q.1, q.2, true)
  | p :: _, _ => (p.1, p.2, true)
  | [], _ => (0, n, true)

/-- The codes of a frame, with the flags of their conversions; a block of scale 0xFF is NaR and sets IV (03 R96; 08 R265). -/
def VecCtx.frameCodes (x : VecCtx) (m : Option (Fin 4)) (t : Elem) (d : Reg) (sc : List Nat) (sat : Bool) (f : Nat) :
    List Nat × Flags :=
  let rs := (span (32 * f) 32).map (fun j =>
    if !x.isActive m j then (0, Flags.none)
    else
      let z := sc.getD (j / x.blen) 127
      if z = 0xFF then (2 ^ (taperN t - 1), Flags.onlyIv)
      else taperRound (taperN t) sat ((decFp .f32 (x.elem .f32 d j)).scale (127 - (z : Int))))
  (rs.map (·.1), rs.foldl (fun a r => a.or r.2) Flags.none)
/-- A frame as a little-endian number. -/
def packFrame (t : Elem) : List Nat → Nat
  | [] => 0
  | a :: l => a + 2 ^ taperN t * packFrame t l

/-- IV events of VSTB: each block of scale 0xFF that holds an active element sets IV once, and the other elements together once. -/
def VecCtx.stbIv (x : VecCtx) (m : Option (Fin 4)) (sc : List Nat) (fl : Flags) : Nat :=
  let n := ((span 0 sc.length).filter (fun b => sc.getD b 127 = 0xFF && (span (b * x.blen) x.blen).any (x.isActive m))).length
  if n = 0 then b01 fl.iv else n

/-- VSTB (08 R265): frame by frame, then the scale bytes in ascending order, as part of the last frame's completion (08 R272). The NaRs of
a block of scale 0xFF are no NaR events, since TaperRound does not produce them (03 R92; DESIGN CHOICE, log 64). -/
def execVstb (o : OpVStoreB) (s : State) : Out :=
  .next (s.vHold o.g o.t typesTaper [o.a, o.b] none (fun x _ => x.vn o.m .f32 4 o.d) (holdStart 32) (fun c n st _ x t h got s =>
    let base := v0 h.vals
    let frames := (x.vl + 31) / 32
    let f := h.pos / 32
    let sc := x.scales o.m o.d
    let fl := (span 0 frames).foldl (fun a f => a.or (x.frameCodes o.m t o.d sc st.fcw.sat f).2) Flags.none
    if h.unit = 0 then
      (match sc[h.pos]? with
      | some z =>
        s.vecTurn c n st (s.vecWrite c n st (vecPlan (11, 3) o.form kWrite 1 false false) (v1 h.vals) h.pos [(0, leBytes 1 z)] 1 .none true)
          (fun _ st s => s.vecNext c n st h (h.pos + 1))
      | none =>
        let s := s.modCore c (fun k => k.numEvent st.lslot 3 (x.stbIv o.m sc fl))
        (s.fpEvents c st.lslot { fl with iv := false } 0).vDone c n (st.raise fl) none Flags.none 0)
    else if base.toNat % 8 != 0 then s.vFault c n st (fAlign base 8)
    else if (s.vecDrain c st o.rl).vecHeld c st o.rl then (s.vecDrain c st o.rl).block c n st .mem
    else if f ≥ frames then s.vDone c n st none fl 0
    else if got < min (chunksOf x.vl) (2 * f + 2) then s.block c n st .mem
    else
      let fb := taperFrame t
      let a := base.toNat + f * fb
      let p := framePart a fb h.pos
      let bytes := ((leBytes fb (packFrame t (x.frameCodes o.m t o.d sc st.fcw.sat f).1)).drop p.1).take p.2.1
      let off := f * fb + p.1
      s.vecTurn c n st (s.vecWrite c n st (vecPlan (11, 3) o.form kWrite 8 (o.fe != .none) false) base off [(0, bytes)] p.2.1 o.fe
          (off = 0)) (fun _ st s =>
        if !p.2.2 then s.vecNext c n st h (32 * f + 16)
        else if f + 1 < frames then s.vecNext c n st h (32 * (f + 1))
        else s.vecNext c n st { h with unit := 0 } 0)))

/-- VLDB (08 R265): the scales first, one event each, then frame by frame; its flags reach FCW when it completes (01 R26). -/
def execVldb (o : OpVLoadB) (s : State) : Out :=
  .next (s.vHold o.g o.t typesTaper [o.a, o.b] none (fun _ _ => none) (holdStart 32) (fun c n st i x t h got s =>
    let base := v0 h.vals
    let frames := (x.vl + 31) / 32
    let blocks := (x.vl + x.blen - 1) / x.blen
    let f := h.pos / 32
    if base.toNat % 8 != 0 then s.vFault c n st (fAlign base 8)
    else if s.vecHeld c st false then s.block c n st .mem
    else if h.buf.length < blocks then
      s.vecTurn c n st (s.vecRead c n st (vecPlan (11, 2) o.form kRead 1 false false) (v1 h.vals) h.buf.length 1 .none true) (fun b st s =>
        s.vecNext c n st { h with buf := h.buf ++ b } h.pos)
    else if f ≥ frames then s.vDone c n st none h.fl 0
    else if got < min (chunksOf x.vl) (2 * f + 2) then s.block c n st .mem
    else
      let fb := taperFrame t
      let p := framePart (base.toNat + f * fb) fb h.pos
      let off := f * fb + p.1
      s.vecTurn c n st (s.vecRead c n st { vecPlan (11, 2) o.form kRead 8 (o.fe != .none) false with aq := o.aq } base off p.2.1 o.fe (off = 0))
        (fun b st s =>
          if !p.2.2 then s.vecNext c n st { h with buf := h.buf ++ b } (32 * f + 16)
          else
            let frame := ofLe (h.buf.drop blocks ++ b)
            let rs := ((span (32 * f) 32).filter (x.isActive o.m)).map (fun j =>
              let z := (h.buf.getD (j / x.blen) 0).toNat
              let code := frame / 2 ^ (taperN t * (j - 32 * f)) % 2 ^ taperN t
              if z = 0xFF then (j, Fmt.f32.nan, Flags.none)
              else
                let r := cvtToFp .f32 st.fcw.rm st.fcw.sat ((decTaper (taperN t) code).scale ((z : Int) - 127))
                (j, r.1, r.2))
            let fl := rs.foldl (fun a r => a.or r.2.2) Flags.none
            let s := s.setVctx c i (x.puts o.d (rs.map (fun r => (r.1, r.2.1))))
            s.vecNext c n st { h with buf := h.buf.take blocks, fl := h.fl.or fl } (32 * (f + 1)))))

/-! ### Gather and scatter (08 R266, R267) -/

/-- The address of a lane. -/
def laneAddr (base : Word) (x : VecCtx) (b : Reg) (w j : Nat) : Word :=
  Word.ofExact (base.toNat + sextInt (x.cell b j) 32 * w)

def VecCtx.setVdm (x : VecCtx) (j : Nat) (b : Bool) : VecCtx :=
  let bit : BitVec 256 := BitVec.ofNat 256 (2 ^ j)
  { x with vdm := if b then x.vdm ||| bit else x.vdm &&& ~~~bit }
def VecCtx.inVdm (x : VecCtx) (j : Nat) : Bool := x.vdm.toNat / 2 ^ j % 2 = 1

/-- VGATH begins: a rerun, a resumption, or a first run that clears VDM (08 R266). -/
def gatherStart (st : Strand) (x : VecCtx) (_ : Elem) (vals : List Word) : VProg × VecCtx :=
  match st.pix with
  | some p => ({ unit := 1, pos := p % 512, rerun := p / 512 % 2 = 1, vals := vals, buf := [], fl := Flags.none }, x)
  | none =>
    let again : Bool := x.vdm != 0 && x.vdmpc = st.pc
    ({ unit := 1, pos := 0, rerun := again, vals := vals, buf := [], fl := Flags.none }, if again then x else { x with vdm := 0, vdmpc := st.pc })

/-- The lane misses in the core TLB (08 R266). -/
def State.coreTlbMiss (s : State) (c : CoreId) (st : Strand) (va : Word) : Bool :=
  (tlbFind (s.core c).coreTlb (s.core c).vmid st.asid va).isNone

/-- VGATH (08 R266): one lane in each turn. -/
def execVgath (o : OpVLane) (s : State) : Out :=
  .next (s.vHold o.g o.t typesMem [o.a] none (fun _ _ => none) gatherStart (fun c n st i x t h got s =>
    let w := elemBytes t
    match ((x.act o.m).filter (fun j => j ≥ h.pos && (!h.rerun || x.inVdm j))) with
    | [] =>
      if got ≥ chunksOf x.vl then s.vDone c n (st.setP3 (x.vdm = 0)) none Flags.none 0 else s.block c n st .mem
    | j :: _ =>
      if got ≤ j / 16 || s.vecHeld c st false then s.block c n st .mem
      else
        let va := laneAddr (v0 h.vals) x o.b w j
        if !h.rerun && Form.isVa o.form && s.coreTlbMiss c st va then
          let s := s.setVctx c i (x.setVdm j true)
          (if canonical va then s.startWalk (placeCtx c st) none (s.core c).vmid va else s).vecNext c n st h (j + 1)
        else
          s.vecTurn c n st (s.vecRead c n st (vecPlan (12, 0) o.form kRead w false false) va 0 w .none true) (fun b st s =>
            (s.setVctx c i ((x.put o.d j (ofLe b)).setVdm j false)).vecNext c n st h (j + 1))))

/-- VSCAT, VSCATADD, VSCATMAX: one lane in each turn (08 R267). -/
def State.vecScatter (s : State) (fn : Nat) (o : OpVLane) (ok : List Elem) (red : Option (Elem → RedOp)) : State :=
  s.vHold o.g o.t ok [o.a] none (fun x t => if red.isSome then x.vn o.m t 4 o.d else none) (holdStart 1) (fun c n st _ x t h got s =>
    let w := elemBytes t
    match ((x.act o.m).filter (fun j => j ≥ h.pos)) with
    | [] => if got ≥ chunksOf x.vl then s.vDone c n st none Flags.none 0 else s.block c n st .mem
    | j :: _ =>
      if got ≤ j / 16 || s.vecHeld c st false then s.block c n st .mem
      else
        let va := laneAddr (v0 h.vals) x o.b w j
        let g := match red with
          | none => s.vecWrite c n st (vecPlan (12, fn) o.form kWrite w false false) va 0 [(0, leBytes w (x.elem t o.d j))] w .none true
          | some f => s.vecRed c st (vecPlan (12, fn) o.form kReduce w false true) va (f t) (x.elem t o.d j)
        s.vecTurn c n st g (fun _ st s => s.vecNext c n st h (j + 1)))
def execVscat (o : OpVLane) (s : State) : Out := .next (s.vecScatter 1 o typesMem none)
def execVscatadd (o : OpVLane) (s : State) : Out :=
  .next (s.vecScatter 2 o typesAcc (some (fun t => match t with | .f32 => .fadd | _ => .add)))
def execVscatmax (o : OpVLane) (s : State) : Out :=
  .next (s.vecScatter 3 o typesAcc (some (fun t => match t with | .f32 => .fmax | _ => .max)))

end Sys2Proof.Machine
end

