-- ==== Sys2Proof/Machine/Stops.lean ====
section
/-! DEFINITION. Stops of strands and units at their boundaries, and their resumption (05 R183; 06 R193, R201, R202; 08 R272;
09 R324). -/
namespace Sys2Proof.Machine
open Sys2Proof

/-- A strand at a boundary with nothing outstanding stands still: from now on frame n holds its state, with kind PREEMPT
(`Core.frameAt`), and an instruction that only read its operands starts again. Otherwise it drains first, and posts refused meanwhile
join its replay queue (05 R183; 06 R193, R202). -/
def State.standStill (s : State) (c : CoreId) (n : Nat) (st : Strand) : State :=
  if st.drained && !(s.core c).vectorOpen st.uid then
    let st := if st.handlerOf.isNone then zeroPorts st else st
    (s.putStrand c n { st with run := .stopped none, deadline := none, trap := none, nest := none, rbuf := [] }).modCore c (fun k =>
      { k with oldFrames := if st.handlerOf.isNone then k.oldFrames.filter (fun e => e.1 != n) else k.oldFrames })
  else s.putStrand c n { st with run := .blocked .mem, trap := some { kind := 5, pc := st.pc, info := #v[0, 0, 0, 0] } }

def Strand.isAwaiting (st : Strand) : Bool := match st.run with | .await _ _ => true | _ => false
/-- A strand that stops takes back the request it waits with: at once, or with the stop to follow the home's answer, so that the wait is
not made again before it (05 R183; 06 R202). -/
def State.stopAwait (s : State) (c : CoreId) (n : Nat) (st : Strand) : State :=
  let s := s.withdraw c n st
  match s.strandAt c n with
  | none => s
  | some st =>
    match st.run with
    | .blocked _ => s.standStill c n st
    | _ =>
      if s.net.any (fun m => match m.body with | .withdraw r _ => r.uid = st.uid | _ => false) then
        s.putStrand c n { st with trap := some { kind := 5, pc := st.pc, info := #v[0, 0, 0, 0] } }
      else s

/-- One attempt to stop a strand of a slot: the flags of a VLDB's frames so far are raised with the stop; a request that waits is withdrawn, a journey or an access under way completes first, and
a trap that is being taken comes first (05 R183; 06 R202). -/
def State.stopStrand (s : State) (c : CoreId) (n : Nat) (st : Strand) : State :=
  match st.trap with
  | some t => if t.kind = 5 && !st.isAwaiting then s.standStill c n st else s
  | none =>
    match st.run with
    | .stopped _ | .faulted | .departing _ _ | .arrived _ => s
    | .await _ _ => s.stopAwait c n st
    | _ => if st.midBulk then s else
      match st.hold with
      | none => s.standStill c n st
      | some h =>
        if h.atPoint then ((s.vLeave c n st.uid).fpEvents c st.lslot h.fl 0).standStill c n { st.raise h.fl with hold := none, pix := some h.pix, pixPc := st.pc } else s

def State.stopSlots (s : State) (c : CoreId) (p : Strand → Bool) : List (Nat × Strand) → State
  | [] => s
  | (n, st) :: t => (if p st then s.stopStrand c n st else s).stopSlots c p t

/-- Records of a launch slot stand still or may go on (09 R324). -/
def Core.holdRecords (k : Core) (p : Record → Bool) (b : Bool) : Core :=
  { k with records := k.records.map (fun r => if p r.2 then (r.1, { r.2 with held := b }) else r) }
/-- A record that a stop has reached its boundary. -/
def Record.still (r : Record) : Bool :=
  r.held && (match r.job with | .copy j => !r.running || j.sent = j.landed | .matrix _ => true)

/-- A waiting coat stops as it is (06 R202). -/
def Coat.stop (x : Coat) : Coat := if x.st.isStopped then x else { x with st := { x.st with run := .stopped x.op } }
def Core.stopCoats (k : Core) (p : Strand → Bool) : Core :=
  let f : Coat → Coat := fun x => if p x.st then x.stop else x
  { k with cloak := k.cloak.map f, spill := k.spill.map f, rescue := k.rescue.map f,
           departures := k.departures.map (fun d => if d.2.landed then (d.1, { d.2 with coat := f d.2.coat }) else d) }
/-- The strands and the records of a core that meet a condition are asked to stop. -/
def State.stopCore (s : State) (c : CoreId) (p : Strand → Bool) (q : Record → Bool) : State :=
  (s.stopSlots c p (s.core c).slots).modCore c (fun k => (k.stopCoats p).holdRecords q true)
/-- They have stopped. -/
def Core.allStopped (k : Core) (p : Strand → Bool) (q : Record → Bool) : Bool :=
  k.slots.all (fun x => !p x.2 || x.2.isStopped) && k.coats.all (fun x => !p x.st || x.st.drained) && k.records.all (fun r => !q r.2 || r.2.still)

/-- A stopped strand goes on; posts refused while it drained, which no one sent again, join its failure record (05 R178; 06 R200). -/
def Strand.resume (st : Strand) : Strand :=
  match st.run with
  | .stopped none => { st with run := .ready, failrec := orUnsent st.failrec st.rq, rq := [] }
  | .stopped (some r) => { st with run := .arrived r }
  | _ => st
def Coat.resume (x : Coat) : Coat := { x with st := x.st.resume }
/-- The stopped strands of a core that meet a condition leave their frames, which keep what they showed (06 R196). -/
def Core.releaseFrames (k : Core) (p : Strand → Bool) : Core :=
  { k with oldFrames := (span 0 32).foldl (fun l n =>
      match k.stoppedAt n with
      | none => l
      | some st => if p st && (List.lookup n k.frozen).isNone then tblSet l n (stoppedFrame st) else l) k.oldFrames }
def State.resumeCore (s : State) (c : CoreId) (p : Strand → Bool) (q : Record → Bool) : State :=
  State.refill 32 (s.modCore c (fun k =>
    let f : Coat → Coat := fun x => if p x.st then x.resume else x
    let k := k.releaseFrames p
    ({ k with slots := k.slots.map (fun x => if p x.2 then (x.1, x.2.resume) else x),
              cloak := k.cloak.map f, spill := k.spill.map f, rescue := k.rescue.map f,
              departures := k.departures.map (fun d => (d.1, { d.2 with coat := f d.2.coat })) } : Core).holdRecords q false)) c

/-- A strand's work in the vector unit is discarded with it. -/
def Core.dropVector (k : Core) (st : Strand) : Core :=
  { k with vqueue := k.vqueue.map (fun q => q.filter (fun e => e.uid != st.uid)),
           vctx := match st.vctx with | none => k.vctx | some i => k.vctx.filter (fun x => x.1 != i) }

end Sys2Proof.Machine
end

