-- ==== Sys2Proof/Machine/Context.lean ====
section
/-! DEFINITION. Core save records: their sections, CTXSAVE and CTXLOAD, and the resending of replay entries (06 R199, R203, R204,
R207; 08 R273; 09 R324 to R327; 10 R485). A record is built as an image of cells by offset (log 31). -/
namespace Sys2Proof.Machine
open Sys2Proof

/-! ### Images -/

/-- Doublewords placed in an image from an offset on. -/
def putWords (m : List Host.Cell) (a : Nat) : List Word → List Host.Cell
  | [] => m
  | w :: t => putWords (memWrite m a (leBytes 8 w.toNat)) (a + 8) t
def wordIn (m : List Host.Cell) (a : Nat) : Word := wd (ofLe (memRead m a 8))
def wordsIn (m : List Host.Cell) (a n : Nat) : List Word := (span 0 n).map (fun i => wordIn m (a + 8 * i))

/-- A stretch of an image in one block of memory: offset, length, PA, leaf. -/
structure Block where
  off : Nat
  n : Nat
  pa : Nat
  leaf : Word

/-- The blocks of [va, va + len), each within one 4 KiB stripe of a page. -/
inductive Blocks where
  | ok (l : List Block) (s : State)
  | wait (s : State)
  | fault (f : FaultInfo) (s : State)
def State.blocks : Nat → State → XCtx → Word → Nat → Nat → Nat → Word → Blocks
  | 0, s, _, _, _, _, _, _ => .ok [] s
  | f + 1, s, x, va, off, len, kind, info =>
    if off ≥ len then .ok [] s
    else
      let n := min (len - off) (4096 - (va.toNat + off) % 4096)
      match s.resolve x Strand.fresh .va va off kind info with
      | .wait s => .wait s
      | .fault e s => .fault e s
      | .ok pa leaf s =>
        if s.farBlocked x.core pa || (isHost pa && s.hostDown pa) then .fault (fAccess (wd pa) 0) s
        else match State.blocks f s x va (off + n) len kind info with
          | .ok l s => .ok ({ off := off, n := n, pa := pa, leaf := leaf } :: l) s
          | r => r
def blockFuel (len : Nat) : Nat := len / 4096 + 2

/-- One block of an image of the dispatcher is written in one step at its home (log 9); control space takes no image. -/
def State.putBlock (s : State) (img : List Host.Cell) (w : Writer) (b : Block) : State :=
  let cells := memSlice img b.off b.n
  let b : Block := { b with pa := s.lands b.pa }
  if isHost b.pa then { s with mem := memPaste (memClear s.mem b.pa b.n) b.off b.pa cells }
  else if inControl (offOf b.pa) then s
  else
    let h := homeOf b.pa
    let w := { w with leaf := b.leaf }
    let s := s.closeLines h b.pa b.n
    let s := if w.log && !lfNolog w.leaf then s.logLines h w (addMask [] b.pa b.n) else s
    let s := { s with mem := memPaste (memClear s.mem b.pa b.n) b.off b.pa cells,
                      ecc := s.ecc.filter (fun g => !(wholeGranules b.pa b.n).contains g),
                      soft := s.soft.filter (fun g => !(wholeGranules b.pa b.n).contains g) }
    let s := if lfMirror w.leaf then s.mirrorRuns h w [(b.pa, memRead s.mem b.pa b.n)] else s
    (s.watch h w [(b.pa, memRead s.mem b.pa (min b.n 8))] []).1.wake h [(b.pa, b.n)]
def State.putBlocks (s : State) (img : List Host.Cell) (w : Writer) : List Block → State
  | [] => s
  | b :: t => (s.putBlock img w b).putBlocks img w t

/-- The image of blocks read, or the first uncorrectable granule. -/
inductive Image where
  | ok (img : List Host.Cell) (s : State)
  | fault (f : FaultInfo) (s : State)
def State.getBlocks (s : State) (img : List Host.Cell) : List Block → Image
  | [] => .ok img s
  | b :: t =>
    let b : Block := { b with pa := s.lands b.pa }
    if isHost b.pa then s.getBlocks (memPaste img b.pa b.off (memSlice s.mem b.pa b.n)) t
    else
      let s := s.closeLines (homeOf b.pa) b.pa b.n
      match s.badGranule b.pa b.n with
      | some g => .fault (fUncorrectable (if inScratch (offOf (16 * g)) then 1 else 2) (16 * g)) s
      | none => (s.correct (homeOf b.pa) b.pa b.n).getBlocks (memPaste img b.pa b.off (memSlice s.mem b.pa b.n)) t

/-! ### What a record holds -/

/-- A frame of a strand to save, with its vector context and the LN of its core. KIND is 0 for a coat (log 31). -/
structure SavedFrame where
  fr : Frame
  vec : Option VecCtx
  ln : Nat
/-- Strands to save, and scheduler records in issue order with their core's LN and their number. -/
structure SaveSet where
  frames : List SavedFrame
  recs : List (Nat × Nat × Record)

/-- Insert by issue order. -/
def insertOrder (x : Nat × Record) : List (Nat × Record) → List (Nat × Record)
  | [] => [x]
  | y :: t => if x.2.order < y.2.order then x :: y :: t else y :: insertOrder x t

def savedFrame (kind : Nat) (st : Strand) : Frame :=
  { st := zeroPorts st, kind := kind, ilen := if kind = 0 then 0 else 2 * st.chain.length, info := #v[0, 0, 0, 0],
    brkskip := st.brkskip }
def Core.vecOf (k : Core) (st : Strand) : Option VecCtx :=
  match st.vctx with
  | none => none
  | some i => List.lookup i k.vctx
/-- The strands and records of a core that meet a condition (06 R203; 08 R273; 09 R324). -/
def Core.saveSet (k : Core) (p : Strand → Bool) (q : Record → Bool) : SaveSet :=
  let save : Nat → Strand → SavedFrame := fun kind st => { fr := savedFrame kind st, vec := k.vecOf st, ln := k.cfg.ln }
  let stand := (k.slots.filter (fun x => p x.2 && x.2.handlerOf.isNone)).map (fun x => save 5 x.2)
  let froz := ((k.frozen.filter (fun x => p x.2.st)).map (fun x =>
    { fr := x.2, vec := k.vecOf x.2.st, ln := k.cfg.ln } ::
      ((k.slots.filter (fun y => y.2.handlerOf = some x.1)).map (fun y => save 5 y.2)))).flatten
  let coats := (k.coats.filter (fun x => p x.st)).map (fun x => { save 0 x.st with vec := (k.vecOf x.st).orElse (fun _ => x.vec) })
  { frames := stand ++ froz ++ coats,
    recs := ((k.records.filter (fun r => q r.2)).foldl (fun l r => insertOrder r l) []).map (fun r => (k.cfg.ln, r)) }
def SaveSet.append (a b : SaveSet) : SaveSet := { frames := a.frames ++ b.frames, recs := a.recs ++ b.recs }

/-! ### Building a record -/

/-- A vector image (08 R273). -/
def vecWords (sid : Nat) (x : VecCtx) : List Word :=
  let m256 : BitVec 256 → List Word := fun v => (span 0 4).map (fun i => wd (v.toNat / 2 ^ (64 * i)))
  [wd (sid * 2 ^ 32), wd x.vl, wd ((if x.blen = 16 then 1 else 2) * 8 + elemCode x.ty), sextVA x.vdmpc] ++ m256 x.vdm ++
    (x.m.toList.map m256).flatten
def putVec (img : List Host.Cell) (a sid : Nat) (x : VecCtx) : List Host.Cell :=
  x.v.foldl (fun m e => memWrite m (a + 0x100 + 4 * e.1) (leBytes 4 e.2)) (putWords img a (vecWords sid x))
def putVecs (img : List Host.Cell) (a : Nat) : List (Nat × VecCtx) → List Host.Cell
  | [] => img
  | (sid, x) :: t => putVecs (putVec img a sid x) (a + 0x4100) t

def putFrames (img : List Host.Cell) (a : Nat) : List SavedFrame → List Host.Cell
  | [] => img
  | f :: t => putFrames (putWords img a (f.fr.words f.ln)) (a + 1024) t

/-- READY bits of a ring (09 R325). -/
def readyBytes (r : Ring) : List Byte :=
  leBytes 128 ((r.ready.map (fun i => 2 ^ i)).sum)
def putRings (img : List Host.Cell) (a : Nat) : List (Nat × Ring) → List Host.Cell
  | [] => img
  | (_, r) :: t => putRings (memWrite (putWords img a r.words) (a + 64) (readyBytes r)) (a + 192) t
def putCredits (img : List Host.Cell) (a : Nat) : List (Nat × Credit) → List Host.Cell
  | [] => img
  | (_, e) :: t => putCredits (putWords img a e.words) (a + 16) t
def maskOf (l : List Nat) : Nat := (l.map (fun i => 2 ^ i)).sum

/-- The WAITERS counts of the saved rings, 4 bits each (log 31). -/
def waiterCounts (l : List (Nat × Ring)) : Nat := (l.map (fun r => r.2.waiters.length * 2 ^ (4 * r.1))).sum

/-- A saved copy (09 R326): the descriptor as read, with SRC, DST and LENGTH advanced to the remainder; bits that the table does not list
keep the issuing strand's SID, flags and GANG (log 31). -/
def copyWords (ln i : Nat) (r : Record) (j : CopyJob) : List Word :=
  [j.src + wd j.landed, j.dst + wd j.landed, setFld j.word 20 0 (j.len - j.landed), r.deps.getD 0 0, mkHandle 0 ln i r.seq, wd j.landed,
   wd (r.sid * 2 ^ 32 + 8 * b01 r.cancel + 4 * b01 r.priv + 2 * b01 r.log + b01 j.started), r.gang]

/-- A lane state: candidate VA, ID, S and j, with its header fields and flags, and 16 bits that the task keeps (09 R326; log 31). -/
def laneWords (l : Lane) (extra : Nat) : List Word :=
  [l.va, l.id, wd (l.j * 2 ^ 32 + l.s),
   wd (extra * 2 ^ 48 + l.nblk % 65536 * 2 ^ 32 + l.uflags * 65536 + 16 * b01 l.badid + 8 * b01 l.nanin + 4 * b01 l.noverdict + 2 * b01 l.verdict + 1)]

/-- The op block of a program (09 R312). -/
def progWords : Option MicroProg → List Word
  | none => [0, 0]
  | some p =>
    [wd (((List.zip (span 0 4) p.ops).map (fun x => x.2 * 2 ^ (16 * x.1))).sum), wd (b01 p.mono * 256 + p.ops.length)]

/-- The 128-byte record as taken at MTASK, with the shadow registers in its zero fields and, at 0x70, the program that step 4 copies into
it (09 R306, R326). -/
def taskWords (m : MatrixJob) : List Word :=
  [setFld (setFld (m.w 0) 51 46 m.fmta) 45 40 m.fmtb, m.w 1, m.w 2, m.sca, m.scb, m.w 5, m.w 6, m.w 7, m.w 8, m.w 9, m.w 10, m.w 11, m.w 12,
   m.w 13] ++ (if m.prog.isSome then progWords m.prog else [m.w 14, m.w 15])
def taskSize (m : MatrixJob) : Nat := 0xA0 + (if m.isScore then 1024 else 4096)
/-- 16 bits of the counts of a score task, in the unlisted bits of lane state i. -/
def MatrixJob.extra (m : MatrixJob) (i : Nat) : Nat :=
  match i with
  | 0 => m.blocks % 65536 | 1 => m.blocks / 65536 % 65536 | 2 => m.abandoned % 65536 | 3 => m.abandoned / 65536 % 65536 | _ => 0
/-- Lane states of a free lane hold its extra bits alone. -/
def MatrixJob.laneAt (m : MatrixJob) (i : Nat) : List Word :=
  match List.lookup i m.lanes with
  | none => [0, 0, 0, wd (m.extra i * 2 ^ 48)]
  | some l => laneWords l (m.extra i)
/-- A saved task (09 R326); the doublewords after the handle keep the issuing strand's SID, flags and GANG and the results published in bits
that the table does not list (log 31). -/
def putTask (img : List Host.Cell) (a ln i : Nat) (r : Record) (m : MatrixJob) : List Host.Cell :=
  let img := putWords img a (taskWords m ++
    [mkHandle 1 ln i r.seq,
     wd (r.sid * 2 ^ 32 + b01 m.refresh * 2 ^ 20 + b01 m.noVerdict * 2 ^ 19 + b01 r.prio * 2 ^ 18 + b01 r.priv * 2 ^ 17 +
       b01 r.log * 2 ^ 16 + (if m.isScore then m.lanes.length else m.step)),
     wd (r.gang.toNat % 2 ^ 32 * 2 ^ 32 + m.theta), wd (m.published % 2 ^ 32 * 2 ^ 32 + b01 r.running)])
  if m.isScore then (span 0 32).foldl (fun g l => putWords g (a + 0xA0 + 32 * l) (m.laneAt l)) img
  else m.acc.foldl (fun g x => memWrite g (a + 0xA0 + 4 * x.1) (leBytes 4 x.2)) img

def putCopies (img : List Host.Cell) (a ln : Nat) : List (Nat × Record) → List Host.Cell × Nat
  | [] => (img, a)
  | (i, r) :: t =>
    match r.job with
    | .copy j => putCopies (putWords img a (copyWords ln i r j)) (a + 64) ln t
    | .matrix _ => putCopies img a ln t
def putTasks (img : List Host.Cell) (a ln : Nat) : List (Nat × Record) → List Host.Cell × Nat
  | [] => (img, a)
  | (i, r) :: t =>
    match r.job with
    | .copy _ => putTasks img a ln t
    | .matrix m => putTasks (putTask img a ln i r m) (a + taskSize m) ln t

/-- An operation of a core outside the gang's rectangle takes a number of the record's core, its own where that is free, and its handles in
the record follow it (10 R485; log 31). -/
structure Moved where
  old : Word
  new : Word
def placeOthers (ln : Nat) (used : List Nat) : List (Nat × Nat × Record) → List (Nat × Record) × List Moved
  | [] => ([], [])
  | (l, i, r) :: t =>
    if l = ln then
      let x := placeOthers ln used t
      ((i, r) :: x.1, x.2)
    else
      let j := if used.contains i then ((span 0 32).find? (fun y => !used.contains y)).getD i else i
      let x := placeOthers ln (j :: used) t
      let kind := if r.isCopy then 0 else 1
      ((j, r) :: x.1, { old := mkHandle kind l i r.seq, new := mkHandle kind ln j r.seq } :: x.2)
def movedHandle (l : List Moved) (h : Word) : Word := match l.find? (fun m => m.old = h) with | none => h | some m => m.new
def Strand.movedHandles (st : Strand) (l : List Moved) : Strand :=
  { st with g := Vector.ofFn (fun r : Fin 16 => if (st.pend[r]).isHandle then movedHandle l st.g[r] else st.g[r]) }
/-- The operations of a record by number, the core's own before those of other cores, and the handles that change. -/
def SaveSet.numbered (x : SaveSet) (ln : Nat) : List (Nat × Record) × List Moved :=
  let y := placeOthers ln ((x.recs.filter (fun r => r.1 = ln)).map (fun r => r.2.1)) x.recs
  (y.1.map (fun r => (r.1, { r.2 with deps := r.2.deps.map (movedHandle y.2) })), y.2)

/-- The image of a save record and its LENGTH (06 R203; 09 R325, R326). `pad` includes the scratchpad image. -/
def State.recordImage (s : State) (c : CoreId) (asid : Nat) (hdr : List Word) (set : SaveSet) (pad : Bool) :
    List Host.Cell × Nat :=
  let k := s.core c
  let num := set.numbered k.cfg.ln
  let recs := num.1
  let frames := set.frames.map (fun f => { f with fr := { f.fr with st := f.fr.st.movedHandles num.2 } })
  let vecs := frames.filterMap (fun f => match f.vec with | none => none | some x => some (f.fr.st.sid, x))
  let rings := k.rings.filter (fun r => r.2.asid = asid)
  let creds := k.credits.filter (fun e => e.2.asid = asid && e.2.valid)
  let n := frames.length
  let s1 := 0x100 + 1024 * n
  let s2 := s1 + 0x4100 * vecs.length
  let cr := s2 + 0x40 + 192 * rings.length
  let sp := roundUp (cr + 16 * creds.length) 64
  let s3 := if pad then sp + 2 ^ 20 + 8192 else sp
  let img := putWords [] 0 (hdr ++ [wd n])
  let img := putFrames img 0x100 frames
  let img := putVecs img s1 vecs
  let img := putWords img s2 [wd (maskOf (rings.map (·.1))), wd (maskOf (creds.map (·.1))), wd (waiterCounts rings)]
  let img := putCredits (putRings img (s2 + 0x40) rings) cr creds
  let img := if pad then
      (span 0 1024).foldl (fun g i =>
          putWords g (sp + 2 ^ 20 + 8 * i) [s.feWord c (64 * i)])
        (memPaste img (coreBase c + 0x20000000) sp (memSlice s.mem (coreBase c + 0x20000000) (2 ^ 20)))
    else img
  let bcb : Nat → Word := fun i => let b := tblGet { count := 0, asid := 0 } k.bcbs i
    if b.asid = asid then wd (asid * 2 ^ 48 + b.count) else 0
  let nCopy := (recs.filter (fun r => r.2.isCopy)).length
  let img := putWords img s3 ((span 0 16).map bcb ++ [wd ((recs.length - nCopy) * 256 + nCopy)])
  let x := putCopies img (s3 + 0x100) k.cfg.ln recs
  let y := putTasks x.1 x.2 k.cfg.ln recs
  let len := roundUp y.2 64
  (putWords y.1 0x18 [wd len, 0x100, wd s1, wd s2, wd s3], len)

/-! ### Leaving the core -/

/-- Saved records leave the board: their handles report GONE (09 R327). -/
def State.recordsGone (s : State) (c : CoreId) : List (Nat × Record) → State
  | [] => s
  | (i, r) :: t =>
    ((s.boardEnd c i r.seq .gone 0).modCore c (fun k => { k with records := k.records.filter (fun x => x.1 != i) })).recordsGone c t

/-- The strands, coats and records that meet a condition leave a core (06 R204). -/
def State.dropSaved (s : State) (c : CoreId) (p : Strand → Bool) (q : Record → Bool) : State :=
  let k := s.core c
  let gone := (k.slots.map (·.2) ++ k.frozen.map (·.2.st) ++ k.coats.map (·.st)).filter p
  let k := gone.foldl (fun k st => k.dropVector st) k
  let held := (k.frozen.filter (fun f => p f.2.st)).map (·.1)
  let k : Core := { k with
    slots := k.slots.filter (fun x => !(p x.2 || (match x.2.handlerOf with | none => false | some f => held.contains f))),
    frozen := k.frozen.filter (fun x => !p x.2.st), cloak := k.cloak.filter (fun x => !p x.st),
    spill := k.spill.filter (fun x => !p x.st), rescue := (match k.rescue with | none => none | some x => if p x.st then none else some x),
    admitting := k.admitting.filter (fun x => !p x.st),
    departures := k.departures.filter (fun d => !(d.2.landed && p d.2.coat.st)) }
  let s := (State.unspill 4096 (s.setCore c k) c).recordsGone c (k.records.filter (fun r => q r.2))
  State.refill 32 s c
/-- The rings of an ASID are freed (09 R324). -/
def State.dropRings (s : State) (c : CoreId) (asid : Nat) : State :=
  s.modCore c (fun k => { k with rings := k.rings.filter (fun r => r.2.asid != asid) })

/-- The strands and the records of a launch slot. -/
def inSlot (asid l : Nat) (st : Strand) : Bool := st.asid = asid && st.lslot = some l
def recInSlot (asid l : Nat) (r : Record) : Bool := r.asid = asid && r.lslot = some l

/-- An uncorrectable granule of the scratchpad that the image would take. -/
def State.badPad (s : State) (c : CoreId) : Option FaultInfo :=
  let g := (coreBase c + 0x20000000) / 16
  match s.ecc.find? (fun x => g ≤ x && x < g + 65536) with
  | none => none
  | some x => some (fUncorrectable 1 (16 * x))

/-- CTXSAVE (06 R203, R204): the header's fields are read, the record is taken as it stands, and each turn writes one granule of it; with the
last, the slots, entries and rings are free. -/
def execCtxsave (o : OpA) (s : State) : Out :=
  .next (s.issue o.g (some (memberInfo 5 3 2)) [o.a] [o.a] none (fun c n st v commit s =>
    let va := v0 v
    if va.toNat % 64 != 0 then s.takeFault c n st (fAlign va 64)
    else match s.readBlock c n st .va kWrite 0 va 16 (memberInfo 5 3 2) with
      | .wait s => s
      | .fault f s => s.takeFault c n st f
      | .ok hdr s =>
        let h := dwAt hdr 0
        let asid := fld h 15 0
        let l := fld h 18 16
        let p := inSlot asid l
        let q := recInSlot asid l
        match st.bulk with
        | some b =>
          if b.pos < b.len then s.putGranule c n st va b (memberInfo 5 3 2)
          else ((((commit s).complete c n (st.setP3 true)).dropSaved c p q).dropRings c asid)
        | none =>
          if !(s.core c).allStopped p q then (commit s).complete c n (st.setP3 false)
          else match s.badPad c with
          | some f => s.takeFault c n st f
          | none =>
            let s := State.closeAll (s.core c).merges.length s c
            let r := s.recordImage c asid [dwAt hdr 0, dwAt hdr 8] ((s.core c).saveSet p q) true
            s.block c n { st with bulk := some { img := r.1, len := r.2, pos := 0, phase := 1 } } .mem))

/-! ### Reading a record -/

def Replay.ofWords (w : List Word) : Replay :=
  let v := w.getD 2 0
  { id := 0, pa := fld (w.getD 0 0) 51 0, data := w.getD 1 0, rl := bitAt v 32, why := fld v 31 24, state := fld v 19 16,
    size := 2 ^ fld v 10 8, op := PostOp.ofCode (fld v 7 0), va := w.getD 3 0 }

/-- Where a restored launch slot stands (06 R203, R204): context, slot, corner, the LNs of the saved cores and the restoring core. -/
structure Place where
  asid : Nat
  lslot : Nat
  x0 : Nat
  y0 : Nat
  lns : List Nat
  core : CoreId

/-- A handle of a copy or task of the saved core names HERE's LN (09 R327). -/
def Place.handle (b : Place) (here : Nat) (h : Word) : Word :=
  if hKind h < 2 && b.lns.contains (hLn h) then setFld h 61 46 here else h

/-- The strand of a saved frame (06 R196, R204): TASK.LSLOT and GANG's corner are rewritten (01 R27). -/
def State.strandOfFrame (s : State) (b : Place) (w : List Word) : Strand :=
  let g : Nat → Word := fun i => w.getD i 0
  let stat := g 6
  let gang := setFld (setFld (wd (fld (g 33) 31 0)) 31 24 b.y0) 23 16 b.x0
  let crewCore : CoreId := { w := b.core.w, x := b.x0 + fld gang 3 0, y := b.y0 + fld gang 7 4 }
  let here := (s.core b.core).cfg.ln
  let pend : Fin 16 → Pend := fun r => if bitAt (g 14) r.val then .handle else .clear
  { Strand.fresh with
    uid := s.nextId, pc := g 0,
    stat := { pinhold := bitAt stat 7, log := bitAt stat 6, wtrap := bitAt stat 5, qbound := bitAt stat 4, vbound := bitAt stat 3,
              heavy := bitAt stat 1, priv := bitAt stat 0 },
    fcw := Fcw.ofWord (g 7), p := #v[bitAt (g 8) 0, bitAt (g 8) 1, bitAt (g 8) 2, bitAt (g 8) 3], jw := wd ((g 9).toNat / 8 * 8), sid := (g 10).toNat % 2 ^ 32,
    pinc := fld (g 11) 12 0, det := { prev := fld (g 11) 37 22, rev := fld (g 11) 14 13, win := fld (g 11) 21 15 },
    qb := qbOfCode (bitAt stat 4) (fld (g 11) 47 38), ldep := min 4 (fld (g 12) 2 0), failrec := FailRec.ofWord (g 13),
    pix := if bitAt (g 15) 32 then some (fld (g 15) 31 0) else none, pixPc := g 0,
    loops := Vector.ofFn (fun i : Fin 4 => { ls := g (16 + i.val), le := g (20 + i.val), lc := g (24 + i.val) }),
    fmta := fld (g 28) 5 0, fmtb := fld (g 29) 5 0, sca := g 30, scb := g 31, task := setFld (wd (fld (g 32) 26 0)) 26 24 b.lslot, gang := gang,
    crew := wd (fld (g 34) 13 8 * 256 + fld (g 34) 5 0), fwd := fld (g 35) 31 16, bounce := fld (g 35) 15 0,
    pend := Vector.ofFn pend,
    g := Vector.ofFn (fun r : Fin 16 => if bitAt (g 14) r.val then b.handle here (g (36 + r.val)) else g (36 + r.val)),
    asid := b.asid, lslot := some b.lslot, cln := (s.core crewCore).cfg.ln, brkskip := bitAt (g 1) 32,
    run := .stopped none }
def rqOfFrame (w : List Word) : List Replay :=
  (span 0 (min 8 (w.getD 52 0).toNat)).map (fun i => Replay.ofWords (w.drop (54 + 4 * i)))
def frameKind (w : List Word) : Nat := fld (w.getD 1 0) 63 56

/-- A vector context of an image (08 R273). -/
def vecOfImage (img : List Host.Cell) (a uid : Nat) : VecCtx :=
  let m256 : Nat → BitVec 256 := fun o => BitVec.ofNat 256 (ofLe (memRead img o 32))
  let f := wordIn img (a + 0x10)
  { owner := uid, vl := min 256 (fld (wordIn img (a + 8)) 8 0), ty := (elemOfCode (fld f 2 0)).getD .f32,
    blen := if fld f 4 3 = 1 then 16 else 32, vdmpc := wordIn img (a + 0x18), vdm := m256 (a + 0x20),
    m := Vector.ofFn (fun i : Fin 4 => m256 (a + 0x40 + 32 * i.val)),
    v := (span 0 4096).filterMap (fun i =>
      let e := ofLe (memRead img (a + 0x100 + 4 * i) 4)
      if e = 0 then none else some (i, e)) }

def ringOfImage (img : List Host.Cell) (a waiters : Nat) : Ring :=
  let w0 := wordIn img a
  let w1 := wordIn img (a + 8)
  let w2 := wordIn img (a + 0x10)
  let w3 := wordIn img (a + 0x18)
  let rdy := ofLe (memRead img (a + 64) 128)
  { asid := fld w0 63 48, mode := fld w0 46 45, sizem1 := fld w0 44 37, logent := fld w0 36 33, base := fld w0 19 0,
    head := fld w1 63 48, pub := fld w1 47 32, claim := fld w1 31 16, granted := 0, cbatch := fld w2 63 48, pword := fld w2 24 16,
    cword := fld w2 8 0, qout := bitAt w3 9, qin := bitAt w3 8, taskref := fld w3 7 0,
    waiters := (span 0 (min 8 waiters)).map (fun i =>
      let x := ofLe (memRead img (a + 0x20 + 4 * i) 4)
      (x / 65536, x % 65536)),
    ready := (span 0 1024).filter (fun i => rdy / 2 ^ i % 2 = 1) }
def creditOfImage (img : List Host.Cell) (a : Nat) : Credit :=
  let w0 := wordIn img a
  { ln := fld w0 63 48, ring := fld w0 47 44, valid := bitAt w0 43, req := bitAt w0 42, sizem1 := fld w0 35 28,
    credits := fld w0 15 0, asid := fld (wordIn img (a + 8)) 63 48, resend := none, tag := none }

/-- A record of the strand that issued a saved operation. -/
def Place.record (b : Place) (s : State) (seq sid : Nat) (log priv prio cancel : Bool) (gang : Word) (deps : List Word)
    (state : RecState) (job : Job) : Record :=
  let gang := setFld (setFld gang 31 24 b.y0) 23 16 b.x0
  let crewCore : CoreId := { w := b.core.w, x := b.x0 + fld gang 3 0, y := b.y0 + fld gang 7 4 }
  { seq := seq, asid := b.asid, lslot := some b.lslot, sid := sid, log := log, priv := priv, gang := gang, origin := b.core,
    cln := (s.core crewCore).cfg.ln, prio := prio, order := 0, deps := deps.filter (fun h => h != 0), state := state,
    cancel := cancel, held := true, job := job }

def State.copyOfImage (s : State) (b : Place) (img : List Host.Cell) (a : Nat) : Nat × Record :=
  let d := memRead img a 32
  let h := wordIn img (a + 0x20)
  let landed := (wordIn img (a + 0x28)).toNat
  let f := wordIn img (a + 0x30)
  let j := copyOfDesc d
  let j : CopyJob := { j with src := j.src - wd landed, dst := j.dst - wd landed, len := j.len + landed, landed := landed,
                              sent := landed, started := bitAt f 0, resume := s.cycle }
  (hSlot h, b.record s (hSeq h) (fld f 63 32) (bitAt f 1) (bitAt f 2) false (bitAt f 3) (wordIn img (a + 0x38)) [dwAt d 24]
    (if bitAt f 0 then .pending else .waitdep) (.copy j))

def laneOfWords (w : List Word) : Lane :=
  let f := w.getD 3 0
  let j := w.getD 2 0
  { va := w.getD 0 0, id := w.getD 1 0, uflags := fld f 31 16, nblk := fld f 47 32, tags := [], j := fld j 63 32, s := fld j 31 0,
    verdict := bitAt f 1, noverdict := bitAt f 2, nanin := bitAt f 3, badid := bitAt f 4 }

/-- A saved task, and the size of its entry. A task saved while it ran goes on as eligible where HERE runs another (09 R297). -/
def State.taskOfImage (s : State) (b : Place) (img : List Host.Cell) (a : Nat) : (Nat × Record) × Nat :=
  let w := wordsIn img a 16
  let g : Nat → Word := fun i => w.getD i 0
  let h := wordIn img (a + 0x80)
  let f := wordIn img (a + 0x88)
  let th := wordIn img (a + 0x90)
  let st := wordIn img (a + 0x98)
  let score := fld (g 0) 62 61 = 1
  let acc := if score then [] else ((span 0 (fld (g 0) 39 35 + 1)).map (fun r =>
    (span 0 (fld (g 0) 34 30 + 1)).map (fun c => (32 * r + c, ofLe (memRead img (a + 0xA0 + 4 * (32 * r + c)) 4))))).flatten
  let lane : Nat → List Word := fun i => wordsIn img (a + 0xA0 + 32 * i) 4
  let extra : Nat → Nat := fun i => if score then fld ((lane i).getD 3 0) 63 48 else 0
  let lanes := if score then (span 0 32).filterMap (fun i =>
      if bitAt ((lane i).getD 3 0) 0 then some (i, laneOfWords (lane i)) else none) else []
  let prog : Option MicroProg := match parseProg (g 14).toNat (g 15).toNat with
    | none => none
    | some p => some { ops := p.1, mono := p.2, asid := b.asid }
  let m : MatrixJob :=
    { words := Vector.ofFn (fun i : Fin 16 => g i.val), fmta := fld (g 0) 51 46, fmtb := fld (g 0) 45 40, sca := g 3, scb := g 4,
      prog := if fld (g 0) 60 59 = 0 then none else prog, step := if score then 0 else fld f 15 0, acc := acc, lanes := lanes,
      theta := fld th 31 0, qscales := [], blocks := extra 0 + 65536 * extra 1, taken := fld st 63 32 + lanes.length,
      published := fld st 63 32, abandoned := extra 2 + 65536 * extra 3, noVerdict := bitAt f 19, refresh := bitAt f 20 }
  ((hSlot h, b.record s (hSeq h) (fld f 63 32) (bitAt f 16) (bitAt f 17) (bitAt f 18) false (wd (fld th 63 32)) [g 1, g 2]
    (if bitAt st 0 then .running else .waitdep) (.matrix m)), taskSize m)
def State.tasksOfImage : Nat → State → Place → List Host.Cell → Nat → List (Nat × Record)
  | 0, _, _, _, _ => []
  | n + 1, s, b, img, a => let t := s.taskOfImage b img a; t.1 :: State.tasksOfImage n s b img (a + t.2)

/-! ### Restoring -/

/-- A record as read: its frames, images, rings, credits and operations. -/
structure SavedCore where
  frames : List (List Word)
  vecs : List Nat
  /-- number, offset, and how many of its WAITERS are there -/
  rings : List (Nat × Nat × Nat)
  creds : List (Nat × Nat)
  pad : Nat
  eng : Nat
  recs : List (Nat × Record)

def bitsOf (n m : Nat) : List Nat := (span 0 n).filter (fun i => m / 2 ^ i % 2 = 1)
def State.parseRecord (s : State) (b : Place) (img : List Host.Cell) : SavedCore :=
  let n := fld (wordIn img 0x10) 15 0
  let s1 := (wordIn img 0x28).toNat
  let s2 := (wordIn img 0x30).toNat
  let s3 := (wordIn img 0x38).toNat
  let rs := bitsOf 16 (wordIn img s2).toNat
  let cs := bitsOf 16 (wordIn img (s2 + 8)).toNat
  let cr := s2 + 0x40 + 192 * rs.length
  let cnt := wordIn img (s3 + 0x80)
  let nc := fld cnt 7 0
  { frames := (span 0 n).map (fun i => wordsIn img (0x100 + 1024 * i) 86),
    vecs := (span 0 ((s2 - s1) / 0x4100)).map (fun i => s1 + 0x4100 * i),
    rings := List.zip rs ((span 0 rs.length).map (fun i => (s2 + 0x40 + 192 * i, (wordIn img (s2 + 0x10)).toNat / 2 ^ (4 * rs.getD i 0) % 16))),
    creds := List.zip cs ((span 0 cs.length).map (fun i => cr + 16 * i)),
    pad := roundUp (cr + 16 * cs.length) 64, eng := s3,
    recs := (span 0 nc).map (fun i => s.copyOfImage b img (s3 + 0x100 + 64 * i)) ++
      State.tasksOfImage (fld cnt 15 8) s b img (s3 + 0x100 + 64 * nc) }

/-- Frames that need a slot of HERE: all but coats and the handlers that share their frame's slot. -/
def slotsNeeded (k : Core) : Bool → List (List Word) → Nat
  | _, [] => 0
  | true, _ :: t => slotsNeeded k false t
  | false, w :: t =>
    let kind := frameKind w
    if kind = 0 || (bitAt (w.getD 6 0) 3 && !k.has 1) then slotsNeeded k false t
    else slotsNeeded k (kind != 5) t + 1

/-- The core with VEC that the chain of proxies reaches (06 R206, R207). -/
def State.vecProxy : Nat → State → CoreId → Nat → Option CoreId
  | 0, _, _, _ => none
  | f + 1, s, c, hops =>
    if (s.core c).has 1 then some c
    else match s.nextProxy c 1 hops with
      | none => none
      | some d => State.vecProxy f s d (hops + 1)

def Core.freeEntry (k : Core) : Option Nat := (span 0 64).find? (fun i => (List.lookup i k.departures).isNone)
def frameBound (w : List Word) : Bool := bitAt (w.getD 6 0) 3
/-- The room check of CTXLOAD (06 R204). On a core without VEC the bound strands need a proxy and departure entries, and none of them may stand
in a trap frame, which no coat carries (06 R207; 01 R36: or refuse to move; log 31). -/
def State.roomFor (s : State) (c : CoreId) (r : SavedCore) : Bool :=
  let k := s.core c
  let here := k.has 1
  let coats := (r.frames.filter (fun w => frameKind w = 0 && (here || !frameBound w))).length
  let bound := r.frames.filter frameBound
  (k.freeIn 0).length + (k.freeIn 1).length ≥ slotsNeeded k false r.frames &&
  (k.cloakDepth - k.cloakUsed) + (k.spillLimit - k.spillUsed) ≥ coats &&
  (if here then k.vctx.length + r.vecs.length ≤ 8
   else bound.isEmpty || ((State.vecProxy 5 s c 0).isSome && k.departures.length + bound.length ≤ 64 &&
     bound.all (fun w => frameKind w = 0 || frameKind w = 5))) &&
  r.rings.all (fun x => (List.lookup x.1 k.rings).isNone) &&
  r.recs.all (fun x => (List.lookup x.1 k.records).isNone)

/-- A bound strand is sent on from a core without VEC: its coat stands in a departure entry, with the vector context, until the strands are
made ready (06 R207). -/
def State.proxyCoat (s : State) (c : CoreId) (st : Strand) (v : VecCtx) : State :=
  match State.vecProxy 5 s c 0, (s.core c).freeEntry with
  | some d, some e =>
    let x : Coat := { st := st, op := none, src := c, entry := e, dst := d, fwd := 0, bounce := 0, needDesc := false,
                      needAnnex := st.ldep ≥ 3, place := 32, mark := .clean, keepPrev := true, vec := some v }
    s.modCore c (fun k => { k with departures := tblSet k.departures e { coat := x, landed := true, ready := 0, mark := .clean } })
  | _, _ => s

/-- Place one saved frame with the image that belongs to it; a frozen strand is followed by its handler. -/
def State.placeFrame (s : State) (b : Place) (img : List Host.Cell) (w : List Word) (vec : Option Nat) (into : Option Nat) :
    Option Nat × State :=
  let st : Strand := { s.strandOfFrame b w with rq := rqOfFrame w }
  let s : State := { s with nextId := s.nextId + 1 }
  let c := b.core
  let kind := frameKind w
  match vec, (s.core c).has 1 with
  | some a, false => (none, s.proxyCoat c st (vecOfImage img a st.uid))
  | _, _ =>
    let st : Strand := match vec with
      | none => { st with stat := { st.stat with vbound := false } }
      | some _ => { st with vctx := (span 0 8).find? (fun i => (List.lookup i (s.core c).vctx).isNone) }
    let s := match st.vctx, vec with
      | some i, some a => s.setVctx c i (vecOfImage img a st.uid)
      | _, _ => s
    if kind = 0 then
      (none, if (s.core c).cloakUsed < (s.core c).cloakDepth && (s.core c).spill.isEmpty then
          s.modCore c (fun k => { k with cloak := k.cloak ++ [waitingCoat c st] })
        else s.shedPut c (waitingCoat c st))
    else match into with
      | some n => (none, s.enterSlot c n { st with handlerOf := some n })
      | none =>
        match (s.core c).pickSlot with
        | none => (none, s)
        | some n =>
          if kind = 5 then (none, s.enterSlot c n st)
          else
            let fr : Frame := { st := { st with run := .ready }, kind := kind, ilen := fld (w.getD 1 0) 55 48,
                                info := #v[w.getD 2 0, w.getD 3 0, w.getD 4 0, w.getD 5 0], brkskip := st.brkskip }
            (some n, s.modCore c (fun k => { k with frozen := tblSet k.frozen n fr, oldFrames := k.oldFrames.filter (fun e => e.1 != n) }))
def State.placeFrames (s : State) (b : Place) (img : List Host.Cell) (vecs : List Nat) (into : Option Nat) : List (List Word) → State
  | [] => s
  | w :: t =>
    let has := frameBound w
    let r := s.placeFrame b img w (if has then vecs.head? else none) into
    r.2.placeFrames b img (if has then vecs.drop 1 else vecs) r.1 t

/-- A restored operation takes its record and its place on HERE's board (09 R327). A task that ran is first among the queued where HERE's engine
runs another (09 R297; log 31). -/
def State.placeRecs (s : State) (c : CoreId) : List (Nat × Record) → State
  | [] => s
  | (i, r) :: t =>
    let s := s.modCore c (fun k =>
      let o := tblGet emptyBoard k.board i
      let slot : BoardSlot := { seq := r.seq, active := true, ends := o.ends.filter (fun e => e.1 != r.seq) }
      { k with board := tblSet k.board i slot,
               records := tblSet k.records i { r with order := k.issueNo, state := if !r.isCopy && r.running && k.runningTask.isSome then .pending else r.state },
               issueNo := k.issueNo + 1 })
    s.placeRecs c t

/-- Rings, credits, barriers and the scratchpad return (09 R325, R327). -/
def State.placeTables (s : State) (b : Place) (img : List Host.Cell) (r : SavedCore) (pad : Bool) : State :=
  let c := b.core
  let base := coreBase c + 0x20000000
  let s := s.modCore c (fun k =>
    { k with rings := r.rings.foldl (fun l x => tblSet l x.1 (ringOfImage img x.2.1 x.2.2)) k.rings,
             credits := r.creds.foldl (fun l x => if (List.lookup x.1 l).isSome then l
               else tblSet l x.1 { creditOfImage img x.2 with tag := s.tagOf c (some b.lslot) }) k.credits,
             bcbs := (span 0 16).foldl (fun l i =>
               let w := wordIn img (r.eng + 8 * i)
               if w != 0 && fld w 63 48 = b.asid then tblSet l i { count := fld w 31 0, asid := b.asid } else l) k.bcbs })
  if pad then
    let g := base / 16
    let empt := (span 0 65536).filter (fun i => ofLe (memRead img (r.pad + 2 ^ 20 + i / 8) 1) / 2 ^ (i % 8) % 2 = 0)
    { s with mem := memPaste (memClear s.mem base (2 ^ 20)) r.pad base (memSlice img r.pad (2 ^ 20)),
             ecc := s.ecc.filter (fun x => !(g ≤ x && x < g + 65536)), soft := s.soft.filter (fun x => !(g ≤ x && x < g + 65536)),
             feEmpty := empt.foldl (fun l i => setAdd l (g + i)) (s.feEmpty.filter (fun x => !(g ≤ x && x < g + 65536))) }
  else s

/-! ### Resending replay entries (06 R199) -/

/-- The leaf under which a posted operation was made, found again through its VA. -/
def State.replayLeaf (s : State) (x : XCtx) (e : Replay) : Word :=
  match s.xlate x e.va kWrite with
  | .ok pa leaf _ => if pa = e.pa then leaf else 0
  | _ => 0
/-- A reduction made for a strand, as it reaches its home. -/
def Strand.redIn (st : Strand) (part pa : Nat) (leaf : Word) (op : RedOp) (n : Nat) (d : Word) : RedIn :=
  { pa := pa, op := op, size := n, data := d.toNat % 2 ^ (8 * n), asid := st.asid, logged := st.stat.log, leaf := leaf,
    lslot := st.lslot, part := part, uid := st.uid }
/-- The strand whose replay entries a number names: that of frame m, or of departure entry m − 64 (06 R196, R207). -/
def Core.replayStrand (k : Core) (m : Nat) : Option Strand :=
  if m < 64 then (match k.frameAt m with | some (f, true) => some f.st | _ => none)
  else match List.lookup (m - 64) k.departures with | none => none | some d => some d.coat.st
/-- Its entries change. -/
def Core.mapReplay (k : Core) (m : Nat) (f : Strand → Strand) : Core :=
  if m < 64 then
    match List.lookup m k.frozen, k.stoppedAt m with
    | some fr, _ => { k with frozen := tblSet k.frozen m { fr with st := f fr.st } }
    | none, some st => { k with slots := tblSet k.slots m (f st) }
    | none, none => k
  else match List.lookup (m - 64) k.departures with
    | none => k
    | some d => { k with departures := tblSet k.departures (m - 64) { d with coat := { d.coat with st := f d.coat.st } } }
def Strand.setReplay (st : Strand) (i : Nat) (e : Replay) : Strand := { st with rq := setAt st.rq i e }

def Cont.isReplay : Cont → Bool
  | .reinj _ _ => true
  | .replay _ _ => true
  | _ => false
def Cont.replayFrame : Cont → Nat
  | .reinj m _ => m
  | .replay m _ => m
  | _ => 0
/-- A replayed reduction that reaches its home, with the strand it is made for. -/
def State.replayOf (s : State) (c : CoreId) (r : MemReq) : Option (Strand × RedOp × Nat × Word) :=
  match r.cont.isReplay, r.op with
  | true, .post (.red op) n d =>
    (match (s.core c).replayStrand r.cont.replayFrame with
    | none => none
    | some st => some (st, op, n, d))
  | _, _ => none
/-- The writer of a request: the strand that sent it, or the one a replay entry is sent for (06 R199: logged at its home like any other). -/
def State.replayWriter (s : State) (ref : Ref) (r : MemReq) : Writer :=
  match r.cont.isReplay, (s.core ref.core).replayStrand r.cont.replayFrame with
  | true, some st => { asid := st.asid, log := st.stat.log, leaf := r.leaf, kind := 1, strand := true, ref := none }
  | _, _ => s.writerOf ref r.leaf
/-- WHY of a refused replay (06 R197). -/
def State.refusedWhy (_s : State) (c : CoreId) (r : MemReq) : Nat := if (homeOf r.pa).w = c.w then 1 else 2

/-- REINJ ends with its reply (06 R199). -/
def State.reinjDone (s : State) (c : CoreId) (n : Nat) (st : Strand) (m i : Nat) (why : Option Nat) : State :=
  (s.modCore c (fun k => k.mapReplay m (fun x => { x with rq := x.rq.modify i (fun e =>
    match why with | none => { e with state := 1 } | some y => { e with why := y }) }))).complete c n (st.setP3 why.isNone)
/-- An entry that CTXLOAD sent: refused again, it joins FAILREC and STATE becomes 2 DROPPED, so that it is neither sent nor counted a second
time (DESIGN CHOICE, log 65: 06 R204 does not give its STATE). -/
def Strand.replayed (st : Strand) (i : Nat) (why : Option Nat) : Strand :=
  match st.rq[i]?, why with
  | some e, none => st.setReplay i { e with state := 1 }
  | some e, some y => { st.setReplay i { e with why := y, state := 2 } with failrec := st.failrec.add (y = 3) e.va.toNat }
  | none, _ => st
def State.replayDone (s : State) (c : CoreId) (n : Nat) (st : Strand) (m i : Nat) (why : Option Nat) : State :=
  (s.modCore c (fun k => k.mapReplay m (fun x => x.replayed i why))).block c n st .mem

/-- One entry of strand f is sent by the strand of slot n as an acknowledged operation (06 R199); one that reaches no home ends at once. -/
def State.sendReplay (s : State) (c : CoreId) (n : Nat) (st f : Strand) (e : Replay) (k : Cont) (fin : State → Option Nat → State) : State :=
  let leaf := s.replayLeaf (placeCtx c f) e
  let r : MemReq := { pa := e.pa, va := e.va, op := .post e.op e.size e.data, cont := k, aq := false, rl := e.rl, leaf := leaf, limit := none }
  if isHost e.pa then
    if s.hostDown e.pa then fin s (some 3)
    else match ((s.fray c f.asid f.lslot f.stat.log).hostFlags c f.lslot r).hostServe r with
      | some x => fin x.2 none
      | none => fin s none
  else if s.waferDown c.w (homeOf e.pa).w then fin s (some 3)
  else if s.farRefuses c e.pa then fin s (some 2)
  else match s.landsAt 9 e.pa with
    | none => fin s (some 1)
    | some _ =>
      let s := if (homeOf e.pa).w != c.w then s.fray c f.asid f.lslot f.stat.log else s
      if homeOf e.pa = c then
        match e.op with
        | .red op => fin (s.redEnter c (f.redIn (s.partOf c) e.pa leaf op e.size e.data)) none
        | _ =>
          match s.serve c r { asid := f.asid, log := f.stat.log, leaf := leaf, kind := 1, strand := true, ref := none } with
          | some (_, s) => fin s none
          | none => fin s none
      else s.sendRequest c n st (homeOf e.pa) .mem r

/-- One entry as the dispatcher's restore sends it, in one step (log 9): the reason of a refusal, and the state (06 R197, R199). -/
def State.resend (s : State) (c : CoreId) (st : Strand) (e : Replay) : Option Nat × State :=
  let leaf := s.replayLeaf (placeCtx c st) e
  let w : Writer := { asid := st.asid, log := st.stat.log, leaf := leaf, kind := 1, strand := true, ref := none }
  if isHost e.pa then
    if s.hostDown e.pa then (some 3, s)
    else
      let r : MemReq := { waitFor .store with pa := e.pa, op := .post e.op e.size e.data }
      match ((s.fray c st.asid st.lslot st.stat.log).hostFlags c st.lslot r).hostServe r with
      | some x => (none, x.2)
      | none => (none, s)
  else if s.waferDown c.w (homeOf e.pa).w then (some 3, s)
  else if s.farRefuses c e.pa then (some 2, s)
  else match s.landsAt 9 e.pa with
    | none => (some 1, s)
    | some pa =>
      let h := homeOf pa
      if (s.core h).dbg.stop then (some 1, s)
      else
        let s := if h.w != c.w then s.fray c st.asid st.lslot st.stat.log else s
        match e.op with
        | .red op => (none, s.redEnter h (st.redIn (s.partOf c) pa leaf op e.size e.data))
        | op =>
          match s.serve h { waitFor .store with pa := pa, leaf := leaf, op := .post op e.size e.data } w with
          | some (_, s) => (none, s)
          | none => (none, s)
/-- Every UNSENT entry of a strand in order (06 R204 step 3). -/
def State.resendAll (s : State) (c : CoreId) (m : Nat) (st : Strand) : List Nat → State
  | [] => s
  | i :: t =>
    match st.rq[i]? with
    | none => s
    | some e =>
      if e.state != 0 then s.resendAll c m st t
      else
        let x := s.resend c st e
        (x.2.modCore c (fun k => k.mapReplay m (fun y => y.replayed i x.1))).resendAll c m st t
def State.replayFrames (s : State) (c : CoreId) (first len : Nat) : List Nat → State
  | [] => s
  | m :: t =>
    match (s.core c).replayStrand m with
    | none => s.replayFrames c first len t
    | some st =>
      if first ≤ st.uid && st.uid < first + len then (s.resendAll c m st (span 0 st.rq.length)).replayFrames c first len t
      else s.replayFrames c first len t

/-- The first strand placed that has an UNSENT entry, in frame order, with that entry. -/
def Core.nextReplay (k : Core) (first len : Nat) : Option (Nat × Nat × Strand × Replay) :=
  (span 0 128).findSome? (fun m =>
    match k.replayStrand m with
    | none => none
    | some st =>
      if first ≤ st.uid && st.uid < first + len then
        match indexOf (fun (e : Replay) => e.state = 0) st.rq 0 with
        | none => none
        | some i => match st.rq[i]? with | none => none | some e => some (m, i, st, e)
      else none)

/-- The tables, strands and operations of a record are placed, its strands stopped and its units held (06 R204 steps 1 and 2). -/
def State.placeRecord (s : State) (b : Place) (img : List Host.Cell) (r : SavedCore) (pad : Bool) : State :=
  ((s.placeTables b img r pad).placeFrames b img r.vecs none r.frames).placeRecs b.core r.recs
/-- A record is restored by the dispatcher, but for making its strands ready (06 R204 steps 1 to 3). -/
def State.restoreRecord (s : State) (b : Place) (img : List Host.Cell) (r : SavedCore) (pad : Bool) : State :=
  (s.placeRecord b img r pad).replayFrames b.core s.nextId r.frames.length (span 0 128)

/-- The header describes a record (06 R203). -/
def recordOk (img : List Host.Cell) : Bool :=
  let n := fld (wordIn img 0x10) 15 0
  let s1 := (wordIn img 0x28).toNat
  let s2 := (wordIn img 0x30).toNat
  let s3 := (wordIn img 0x38).toNat
  let len := (wordIn img 0x18).toNat
  wordIn img 0x20 = 0x100 && s1 = 0x100 + 1024 * n && s1 ≤ s2 && s2 < s3 && s3 + 0x100 ≤ len

/-- The LNs of the cores whose strands and operations a record holds. -/
def savedLns (img : List Host.Cell) : List Nat :=
  let n := fld (wordIn img 0x10) 15 0
  let s3 := (wordIn img 0x38).toNat
  let nc := fld (wordIn img (s3 + 0x80)) 7 0
  ((span 0 n).map (fun i => fld (wordIn img (0x100 + 1024 * i + 0x58)) 63 48)) ++
    ((span 0 nc).map (fun i => hLn (wordIn img (s3 + 0x100 + 64 * i + 0x20))))
/-- Where CTXLOAD restores, by the header and the image. -/
def loadPlace (c : CoreId) (hdr : List Byte) (img : List Host.Cell) : Place :=
  let h := dwAt hdr 0
  { asid := fld h 15 0, lslot := fld h 31 29, x0 := fld (dwAt hdr 8) 7 0, y0 := fld (dwAt hdr 8) 15 8, lns := savedLns img, core := c }

/-- CTXLOAD (06 R203, R204, R207): the header, then the record granule by granule; then it places all, sends the UNSENT entries one by one,
and makes the strands ready. -/
def execCtxload (o : OpA) (s : State) : Out :=
  .next (s.issue o.g (some (memberInfo 5 3 3)) [o.a] [o.a] none (fun c n st v commit s =>
    let va := v0 v
    if va.toNat % 64 != 0 then s.takeFault c n st (fAlign va 64)
    else match s.readBlock c n st .va kRead 0 va 64 (memberInfo 5 3 3) with
      | .wait s => s
      | .fault f s => s.takeFault c n st f
      | .ok hdr s =>
        match st.bulk with
        | none =>
          if !recordOk (memWrite [] 0 hdr) then (commit s).complete c n (st.setP3 false)
          else s.block c n { st with bulk := some { img := [], len := (dwAt hdr 0x18).toNat, pos := 0, phase := 1 } } .mem
        | some b =>
          if b.phase = 2 then
            match (s.core c).nextReplay b.pos b.len with
            | some (m, i, f, e) => s.sendReplay c n st f e (.replay m i) (fun s why => s.replayDone c n st m i why)
            | none =>
              let h := dwAt hdr 0
              ((commit s).complete c n (st.setP3 true)).resumeCore c (inSlot (fld h 15 0) (fld h 31 29)) (recInSlot (fld h 15 0) (fld h 31 29))
          else if b.pos < b.len then
            match s.readGranule c n st .va kRead va b.pos b.len (memberInfo 5 3 3) with
            | .wait s => s
            | .fault f s => s.takeFault c n st f
            | .ok _ s => s
          else
            let at' := loadPlace c hdr b.img
            let r := s.parseRecord at' b.img
            if !s.roomFor c r then (commit s).complete c n (st.setP3 false)
            else (s.placeRecord at' b.img r true).block c n
              { st with bulk := some { img := [], len := r.frames.length, pos := s.nextId, phase := 2 } } .mem))

end Sys2Proof.Machine
end

