-- ==== Sys2Proof/Machine/Futures.lean ====
section
/-! DEFINITION. Futures and fences: FWAIT, FTEST, FCANCEL, FSTATUS, FENCE (05 R173 to R179). -/
namespace Sys2Proof.Machine
open Sys2Proof

/-- The HANDLE bit of a register that is no port is cleared. -/
def Strand.clearHandle (st : Strand) (r : Reg) : Strand := if st.isHandle r then st.setPend r .clear else st

/-- FWAIT with the board's answer (05 R174): it ends, or the strand asks again at its next turn. -/
def State.fwaitDone (s : State) (c : CoreId) (n : Nat) (st : Strand) (a : Reg) (state : Nat) (commit : State → State) : State :=
  if isEnded state then (commit s).complete c n ((st.clearHandle a).setP3 (state = 2))
  else s.block c n st .msg

/-- FTEST with the board's answer (05 R174). -/
def State.ftestDone (s : State) (c : CoreId) (n : Nat) (st : Strand) (a : Reg) (state : Nat) (commit : State → State) : State :=
  if isEnded state then (commit s).complete c n ((st.clearHandle a).setP3 true)
  else (commit s).complete c n (st.setP3 false)

/-- The status word of FSTATUS (05 R176). -/
def statusWord (state progress : Nat) : Word := wd (state * 2 ^ 60 + progress % 2 ^ 32)

/-- A query of a handle: answered at once by HERE's board, else by the owner's (05 R174). -/
def State.askBoard (s : State) (c : CoreId) (n : Nat) (st : Strand) (h : Word) (k : Cont) (done : Nat × Nat × Word → State) :
    State :=
  if s.handleLocal c h then done (s.boardState (s.partOf c) h) else s.queryBoard c n st h k

/-- FWAIT (05 R174). -/
def execFwait (o : OpA) (s : State) : Out :=
  .next (s.issue o.g none [o.a] [] none (fun c n st v commit s =>
    s.askBoard c n st (v0 v) (.fwait o.a) (fun r => s.fwaitDone c n st o.a r.1 commit)))

/-- FTEST (05 R174). -/
def execFtest (o : OpA) (s : State) : Out :=
  .next (s.issue o.g none [o.a] [] none (fun c n st v commit s =>
    s.askBoard c n st (v0 v) (.ftest o.a) (fun r => s.ftestDone c n st o.a r.1 commit)))

/-- FCANCEL (05 R175): a cancel request goes to the core that owns the operation. -/
def execFcancel (o : OpA) (s : State) : Out :=
  .next (s.issue o.g none [o.a] [] none (fun c n st v commit s =>
    let h := v0 v
    let s := (commit s).complete c n st
    if hKind h ≥ 2 then s
    else match s.lnCore (s.partOf c) (hLn h) with
      | none => s
      | some d => s.send c d false (s.tagOf c st.lslot) (.cancel h)))

/-- FSTATUS (05 R176). -/
def execFstatus (o : OpDA) (s : State) : Out :=
  .next (s.issue o.g none [o.a] [] (some o.d) (fun c n st v commit s =>
    s.askBoard c n st (v0 v) (.fstatus o.d o.a) (fun r => (commit s).writeBack c n st (some o.d) (statusWord r.1 r.2.1))))

/-- FENCE at a scope whose completion is `done` (05 R177, R178): it writes and clears the failure record. -/
def State.fenceOp (s : State) (o : OpX) (done : State → CoreId → Strand → Bool) : State :=
  s.issue o.g none [] [] (some o.x) (fun c n st _ commit s =>
    let s := s.drainQueue c st
    if done s c st then
      let st' : Strand := { st with failrec := FailRec.reset }
      (commit s).writeBack c n st' (some o.x) st.failrec.toWord
    else s.block c n st .mem)
def execFenceCore (o : OpX) (s : State) : Out := .next (s.fenceOp o (fun _ c st => quietNear c st))
def execFenceClus (o : OpX) (s : State) : Out := .next (s.fenceOp o (fun _ c st => quietNear c st))
def execFencePart (o : OpX) (s : State) : Out := .next (s.fenceOp o (fun s c st => s.quiet c st false))
def execFenceFab (o : OpX) (s : State) : Out := .next (s.fenceOp o (fun s c st => s.quiet c st true))
def execFenceSys (o : OpX) (s : State) : Out := .next (s.fenceOp o (fun s c st => s.quiet c st true))

end Sys2Proof.Machine
end

