-- ==== Sys2Proof/Machine/Dispatcher.lean ====
section
/-! DEFINITION. The dispatcher: launch records, queues, dependences, placement, start, pre-emption, fault stops, counting sweeps and
completion (06 R188 to R190, R202; 10 R330 to R354, R485). -/
namespace Sys2Proof.Machine
open Sys2Proof

/-! ### Records and their refusals (10 R330, R331) -/

/-- The live cores of a partition by LN. -/
def State.coresOf (s : State) (p : Nat) : List CoreId := match s.part p with | none => [] | some x => x.live

/-- A live user core of a partition; a retired one is none (10 R338). -/
def State.userCore (s : State) (p : Nat) (c : CoreId) : Bool :=
  let k := s.core c
  c.x < 240 && c.y < 256 && k.live && k.owned && !k.cfg.groom && !k.cfg.fwdValid && s.partOf c = p && k.cfg.ln != 0xFFFF
/-- The first corner in LN order whose rectangle meets a condition (10 R338). -/
def State.findRect (s : State) (p gw gh : Nat) (ok : List CoreId → Bool) : Option CoreId :=
  (s.coresOf p).find? (fun c =>
    let cs := rectCores c.w c.x c.y gw gh
    cs.all (s.userCore p) && ok cs)

def Launch.holdsQueue (l : Launch) : Bool :=
  l.slot.isNone && (match l.state with | .waitdep => true | .queued => true | .placing => true | _ => false)

/-- The first reason for which the dispatcher refuses a record (10 R331). -/
def State.recRefused (s : State) (p asid : Nat) (w : Vector Word 8) : Option Nat :=
  let w1 := recWord w 1
  let w6 := recWord w 6
  let w7 := recWord w 7
  if bitAt (recEntry w) 0 || !canonical (recEntry w) || (recDone w).toNat % 64 != 0 then some 0x10
  else if recCrew w = 0 || recCrew w > 32 || recCount w > 2 ^ 24 || fld w1 60 49 != 0 || fld w1 23 19 != 0 || fld w1 15 14 != 0 ||
      fld w6 63 62 != 0 || fld w7 63 62 != 0 then some 0x11
  else if fmtBad (fld w6 61 56) || fmtBad (fld w7 61 56) then some 0x12
  else match s.part p with
    | none => some 0x15
    | some x =>
      if (x.launches.filter (fun l => l.asid = asid && l.holdsQueue && l.level = recPrio w)).length ≥ 256 then some 0x13
      else if (s.findRect p (recGw w) (recGh w) (fun _ => true)).isNone then some 0x14
      else if (s.context p asid).isNone then some 0x15
      else none

/-- DSTAT's REFUSALS (10 R333). -/
def State.countRefusal (s : State) (p : Nat) : State :=
  s.modPart p (fun x => { x with refusals := min (x.refusals + 1) (2 ^ 32 - 1) })

/-- A board slot of HOME for a new launch: one with no launch in it, in rotation (log 32). -/
def Partition.boardSlot (x : Partition) (home : Nat) : Nat :=
  let used : Nat → Bool := fun b => x.launches.any (fun l => l.bslot = b && l.home = home)
  let order := (span 0 32).map (fun i => 32 + (x.launchNo + i) % 32)
  match order.find? (fun b => !used b) with
  | some b => b
  | none => 32 + x.launchNo % 32

/-- A record is queued in its context: its handle, or the reason of its refusal (10 R331, R333, R341). One that arrives while its
context is torn down is discarded and counted, never queued (R351). -/
def State.enqueueLaunch (s : State) (p asid : Nat) (w : Vector Word 8) : Word × State :=
  match s.recRefused p asid w, s.part p, s.context p asid with
  | some r, _, _ => (badHandle r, s.countRefusal p)
  | none, some x, some k =>
    match s.lnCore p k.home with
    | none => (badHandle 0x15, s.countRefusal p)
    | some h =>
      let b := x.boardSlot k.home
      let q := s.boardTake h b
      let l : Launch :=
        { asid := asid, words := w, level := recPrio w, entered := s.cycle, order := x.launchNo, home := k.home, bslot := b, seq := q.1,
          state := .waitdep, slot := none, nextGang := 0, gangs := [], endedGangs := 0, startedGangs := 0, saved := [], fault := none,
          more := 0, cancelled := false, torn := false, carried := [], sweep := none, stopping := false, dumping := false,
          startSeam := false }
      (mkHandle 2 k.home b q.1,
        if x.tearing.contains asid then
          (q.2.boardEnd h b q.1 .cancelled 0).modPart p (fun x => { x with discards := min (x.discards + 1) (2 ^ 32 - 1) })
        else q.2.modPart p (fun x => { x with launches := x.launches ++ [l], launchNo := x.launchNo + 1 }))
  | none, _, _ => (badHandle 0x15, s.countRefusal p)

/-! ### LAUNCH and LSTAT (10 R341, R342) -/

def recordOfBytes (b : List Byte) : Vector Word 8 := Vector.ofFn (fun i : Fin 8 => dwAt b (8 * i.val))

/-- LAUNCH: release, read the record, then ENQUEUE; a HANDLE-pending result comes with the reply. -/
def execLaunch (o : OpDA) (s : State) : Out :=
  .next (s.issue o.g none [o.a] [o.a] (some o.d) (fun c n st v commit s =>
    let s := s.drainQueue c st
    if !s.quiet c st false then s.block c n st .mem
    else match s.resolve (scalarCtx c n st) st .va (v0 v) 0 kRead (memberInfo 4 2 0) with
      | .wait s => s.block c n st .mem
      | .fault f s => s.takeFault c n st f
      | .ok _ _ s =>
        if (v0 v).toNat % 64 != 0 then s.takeFault c n st (fAlign (v0 v) 64)
        else match s.readVa c n st (v0 v) 64 (memberInfo 4 2 0) with
          | .wait s => s
          | .fault f s => s.takeFault c n st f
          | .ok b s =>
            let p := s.partOf c
            let w := recordOfBytes b
            match s.recRefused p st.asid w with
            | some r => ((commit s).countRefusal p).giveBad c n st o.d r
            | none =>
              ((commit s).putStrand c n { st with run := .await .msg (waitFor (.launch o.d)) }).send c (s.homeSlice p st.asid c)
                false (s.tagOf c st.lslot) (.enqueue (some ⟨c, n, st.uid⟩) st.asid w 0)))

/-- LSTAT. -/
def execLstat (o : OpDA) (s : State) : Out :=
  .next (s.issue o.g none [o.a] [] (some o.d) (fun c n st v commit s =>
    s.askBoard c n st (v0 v) (.lstat o.d o.a) (fun r => (commit s).writeBack c n st (some o.d) r.2.2)))

/-- ENQUEUE (10 R341, R351): the launch is queued or refused, and the reply carries its handle. -/
def execEnqueue (o : EvMsg) (s : State) : Out :=
  s.onMsg o.i (fun m s =>
    match m.body with
    | .enqueue ref asid w _ =>
      let s := s.receive o.i m
      let r := s.enqueueLaunch (s.partOf m.dst) asid w
      (match ref with
       | none => r.2
       | some ref => r.2.send m.dst ref.core true m.tag (.enqueueReply ref r.1))
    | _ => s)

/-! ### Queues (10 R335, R336) -/

/-- A launch that waits in its queue: queued, or without a slot because its gangs are all saved. -/
def Launch.inQueue (l : Launch) : Bool :=
  match l.state with
  | .queued => true
  | .placing => l.slot.isNone
  | _ => false

/-- LAUNCH_AGEING (10 R335): AGE ticks in a level raise the launch by one. -/
def execLaunchAgeing (o : EvPartN) (s : State) : Out :=
  .next (match s.part o.p with
    | none => s
    | some x =>
      match x.launch o.n with
      | none => s
      | some l =>
        match s.context o.p l.asid with
        | none => s
        | some k =>
          if l.inQueue && k.age != 0 && l.level < 7 && (s.cycle - l.entered) * 10 / 36 ≥ k.age then
            s.modLaunch o.p o.n (fun l => { l with level := l.level + 1, entered := s.cycle })
          else s)

/-- The next gang of a launch: a saved one with the lowest number, or the next new one. -/
def Launch.nextNo (l : Launch) : Option Nat :=
  match l.saved.foldl (fun b g => match b with | none => some g.no | some n => some (min n g.no)) (none : Option Nat) with
  | some n => some n
  | none => if l.nextGang < recCount l.words then some l.nextGang else none
/-- The dispatcher selects, places and starts nothing: the partition is held or its live map changes (12 R382; 14 R418). -/
def Partition.shut (x : Partition) : Bool := x.held || x.newMap.isSome

/-- It is served before another: higher level, then earlier entry, then lower ASID, then its place in the queue. -/
def Launch.before (a b : Launch) : Bool :=
  if a.level != b.level then a.level > b.level
  else if a.entered != b.entered then a.entered < b.entered
  else if a.asid != b.asid then a.asid < b.asid
  else a.order < b.order
/-- A launch that the dispatcher still has to serve: it waits for a slot or has gangs to place. -/
def Launch.toServe (l : Launch) : Bool :=
  !l.stopping && (match l.state with | .queued => true | .placing => l.nextNo.isSome | _ => false)
/-- The selected launch of a partition (10 R335). -/
def Partition.head (x : Partition) : Option Launch :=
  (x.launches.filter Launch.toServe).foldl (fun b l => match b with
    | none => some l
    | some y => if l.before y then some l else some y) none

/-- Counters of a launch slot are cleared when the dispatcher assigns it (10 R346; 15 R450). -/
def Core.clearSlot (k : Core) (l : Nat) : Core :=
  { k with lctr := k.lctr.filter (fun x => x.1 != l), numevt := k.numevt.filter (fun x => x.1 / 8 != l) }

/-- LAUNCH_SELECT (10 R335, R337, R352): the head of the highest level takes a free slot. -/
def execLaunchSelect (o : EvPart) (s : State) : Out :=
  .next (match s.part o.p with
    | none => s
    | some x =>
      match x.head with
      | none => s
      | some l =>
        if x.shut || l.slot.isSome then s
        else match (span 0 8).find? (fun n => (x.slotLaunch n).isNone) with
          | none => s
          | some n =>
            let s := overCores s (fun s c => s.modCore c (fun k => k.clearSlot n)) x.live
            s.modLaunch o.p l.order (fun l =>
              { l with slot := some n, state := if recCount l.words = 0 then .sweeping else .placing, sweep := none }))

/-! ### Placement (10 R338, R339) -/

/-- A core is available to a new gang (10 R338). -/
def State.coreFree (s : State) (l crew : Nat) (c : CoreId) : Bool :=
  let k := s.core c
  (List.lookup l k.crews).isNone && (k.freeIn 0).length + (k.freeIn 1).length ≥ crew

/-- The translation context of the dispatcher for a context's own memory. -/
def homeCtx (h : CoreId) (asid : Nat) : XCtx := { core := h, barrel := none, asid := asid, priv := true, uid := none }

/-- The image of a save record of the pool. -/
def State.poolRecord (s : State) (h : CoreId) (asid : Nat) (va : Word) : Option (List Host.Cell) :=
  match s.blocks 2 (homeCtx h asid) va 0 256 kRead 0 with
  | .ok hb s =>
    (match s.getBlocks [] hb with
    | .ok hdr s =>
      if !recordOk hdr then none
      else match s.blocks (blockFuel (wordIn hdr 0x18).toNat) (homeCtx h asid) va 0 (wordIn hdr 0x18).toNat kRead 0 with
        | .ok bs s => (match s.getBlocks [] bs with | .ok img _ => some img | .fault _ _ => none)
        | _ => none
    | .fault _ _ => none)
  | _ => none

/-- Where the i-th core of a resumed gang stands. -/
def placeOf (l : Launch) (slot : Nat) (corner c : CoreId) (img : List Host.Cell) : Place :=
  { asid := l.asid, lslot := slot, x0 := corner.x, y0 := corner.y, lns := savedLns img, core := c }
/-- Every core of a rectangle has room for its record of a saved gang (10 R338). -/
def State.savedFits (s : State) (l : Launch) (slot : Nat) (corner : CoreId) (h : CoreId) : List CoreId → List Word → Bool
  | c :: cs, r :: rs =>
    (List.lookup slot (s.core c).crews).isNone &&
    (match s.poolRecord h l.asid r with
      | none => false
      | some img => s.roomFor c (s.parseRecord (placeOf l slot corner c img) img)) &&
    s.savedFits l slot corner h cs rs
  | _, _ => true

/-- The rectangle for the next gang of a launch (10 R338). -/
def State.rectFor (s : State) (p : Nat) (l : Launch) (slot : Nat) : Option CoreId :=
  let w := l.words
  match l.nextNo with
  | none => none
  | some no =>
    match l.saved.find? (fun g => g.no = no) with
    | none => s.findRect p (recGw w) (recGh w) (fun cs => cs.all (s.coreFree slot (recCrew w)))
    | some g =>
      match s.context p l.asid with
      | none => none
      | some k =>
        match s.lnCore p k.home with
        | none => none
        | some h => s.findRect p (recGw w) (recGh w) (fun cs =>
            match cs with
            | [] => false
            | corner :: _ => s.savedFits l slot corner h cs g.recs)

/-- The crew-table entry of one core of a gang (07 R219). -/
def crewEntry (l : Launch) (slot no : Nat) (corner c : CoreId) : Crew :=
  let w := l.words
  { asid := l.asid, log := recLog w, taskv := slot * 2 ^ 24 + no, fmta := fld (recWord w 6) 61 56, fmtb := fld (recWord w 7) 61 56,
    size := recCrew w,
    gangv := corner.y * 2 ^ 24 + corner.x * 65536 + recGh w * 4096 + recGw w * 256 + (c.y - corner.y) * 16 + (c.x - corner.x),
    sca := sextVA (wd (fld (recWord w 6) 55 0)), scb := sextVA (wd (fld (recWord w 7) 55 0)), exited := 0, arrived := 0,
    pendrel := 0, phase := 0, refs := [], removed := false, mark := .clean }

/-- A crew strand in its dispatch state (01 R23, R25, R27, R28, R31). -/
def crewStrand (l : Launch) (x : Crew) (slot ln uid sid member : Nat) : Strand :=
  { Strand.fresh with
    uid := uid, sid := sid, pc := recEntry l.words, g := (Vector.replicate 16 0).set 0 (recArgs l.words),
    stat := { Stat.reset with heavy := recHeavy l.words, log := recLog l.words }, fmta := x.fmta, fmtb := x.fmtb, sca := x.sca,
    scb := x.scb, task := wd x.taskv, gang := wd x.gangv, crew := wd (x.size * 256 + member), asid := l.asid, cln := ln,
    lslot := some slot, run := .stopped none }
def State.placeMembers (s : State) (c : CoreId) (l : Launch) (x : Crew) (slot : Nat) : List Nat → State
  | [] => s
  | m :: t =>
    match (s.core c).pickSlot with
    | none => s
    | some n =>
      let r := s.newSid c
      (r.2.2.enterSlot c n (crewStrand l x slot (s.core c).cfg.ln r.2.1 r.1 m)).placeMembers c l x slot t

/-- The crew table and the slot pair of one core (07 R219; 10 R334). -/
def State.writeCrew (s : State) (c : CoreId) (k : Context) (slot : Nat) (x : Crew) : State :=
  s.modCore c (fun y => { y.setCrew slot x with hpairs := tblSet y.hpairs slot (setBit k.hentry 0 false, k.harg) })

/-- A new gang takes its rectangle: crew tables, slot pairs and strands, which do not issue yet (10 R339). -/
def State.placeGang (s : State) (k : Context) (l : Launch) (slot no : Nat) (corner : CoreId) : List CoreId → State
  | [] => s
  | c :: t =>
    let x := crewEntry l slot no corner c
    ((s.writeCrew c k slot x).placeMembers c l x slot (span 0 x.size)).placeGang k l slot no corner t

/-- A saved gang takes its rectangle (06 R204; 10 R340): its crews with their channels, and each core's record. -/
def State.restoreGang (s : State) (k : Context) (l : Launch) (slot : Nat) (g : SavedGang) (corner h : CoreId) :
    Nat → List CoreId → List Word → State
  | i, c :: cs, r :: rs =>
    let s := match List.lookup i g.crews with
      | none => s
      | some x =>
        let fresh := crewEntry l slot g.no corner c
        s.writeCrew c k slot { x with taskv := fresh.taskv, gangv := fresh.gangv, refs := [] }
    let s := ((g.chans.filter (fun y => y.1 = i)).map (·.2)).foldl (fun s y => s.modCore c (fun k => k.setChan { y with lslot := slot })) s
    let s := match s.poolRecord h l.asid r with
      | none => s
      | some img => let b := placeOf l slot corner c img; s.restoreRecord b img (s.parseRecord b img) true
    s.restoreGang k l slot g corner h (i + 1) cs rs
  | _, _, _ => s

/-- A launch start opens a seam when the launch is logged (15 R436). -/
def State.wantsSeam (s : State) (p : Nat) (l : Launch) : Option Nat :=
  if !recLog l.words || l.nextGang != 0 || !l.saved.isEmpty then none
  else match s.logSlotOf p l.asid with
    | none => none
    | some (n, g) => if g.off then none else some n

/-- GANG_PLACEMENT (10 R335, R338, R339): the next gang of the selected launch. -/
def execGangPlacement (o : EvPartN) (s : State) : Out :=
  .next (match s.part o.p with
    | none => s
    | some x =>
      match x.head with
      | none => s
      | some l =>
        if l.order != o.n || x.shut then s
        else match l.slot, l.nextNo, s.context o.p l.asid with
          | some slot, some no, some k =>
            (match s.rectFor o.p l slot, s.lnCore o.p k.home with
            | some corner, some h =>
              let cs := rectCores corner.w corner.x corner.y (recGw l.words) (recGh l.words)
              let again := l.saved.any (fun g => g.no = no && g.started)
              let g : Gang := { no := no, x0 := corner.x, y0 := corner.y, started := false, resumed := again, stopping := false,
                                startTsc := 0, ended := [] }
              let seam := s.wantsSeam o.p l
              let s := match l.saved.find? (fun g => g.no = no) with
                | none => s.placeGang k l slot no corner cs
                | some sg => s.restoreGang k l slot sg corner h 0 cs sg.recs
              let s := match seam with
                | none => s
                | some n => let q : SeamReq := { slot := n, ref := none, period := x.period }
                  s.modPart o.p (fun x => { x with seamReqs := x.seamReqs ++ [q] })
              let s := if l.nextGang != 0 || !l.saved.isEmpty then s else match s.logSlotOf o.p l.asid with
                | none => s
                | some (n, _) => s.modLog o.p n (fun g => { g with starts := g.starts + 1 })
              s.modLaunch o.p o.n (fun l =>
                { l with gangs := l.gangs ++ [g], saved := l.saved.filter (fun g => g.no != no), state := .placing,
                         nextGang := max l.nextGang (no + 1), startSeam := l.startSeam || seam.isSome })
            | _, _ => s)
          | _, _, _ => s)

/-- The LNs of a gang's cores. -/
def State.gangLns (s : State) (p : Nat) (l : Launch) (g : Gang) : List Nat := (l.gangCores p g).map (fun c => (s.core c).cfg.ln)
/-- Strands and records of one gang, wherever they stand (10 R485). -/
def ofGang (asid slot : Nat) (lns : List Nat) (st : Strand) : Bool := inSlot asid slot st && lns.contains st.cln
def recOfGang (asid slot : Nat) (lns : List Nat) (r : Record) : Bool := recInSlot asid slot r && lns.contains r.cln

def State.traceAll (s : State) (ty slot arg : Nat) : List CoreId → State
  | [] => s
  | c :: t => (s.trace c ty slot arg).traceAll ty slot arg t

/-- A gang of a launch with its slot. -/
def State.gangOf (s : State) (p order gang : Nat) : Option (Partition × Launch × Nat × Gang) :=
  match s.part p with
  | none => none
  | some x =>
    match x.launch order with
    | none => none
    | some l =>
      match l.slot, l.gangs.find? (fun g => g.no = gang) with
      | some n, some g => some (x, l, n, g)
      | _, _ => none
def State.modGang (s : State) (p order gang : Nat) (f : Gang → Gang) : State :=
  s.modLaunch p order (fun l => { l with gangs := l.gangs.map (fun g => if g.no = gang then f g else g) })

/-- What follows when gangs started or ended: every gang started or ended makes the launch RUNNING, and with nothing left to run the sweeps
begin (10 R347, R353). -/
def Launch.settle (l : Launch) : Launch :=
  let busy : Bool := match l.state with | .placing => true | .running => true | _ => false
  if !busy then l
  else if l.gangs.isEmpty && (l.stopping || l.nextNo.isNone) then { l with state := .sweeping, sweep := none, saved := [] }
  else if l.nextNo.isNone && l.gangs.all (·.started) then { l with state := .running }
  else l

/-- The log slot of the context keeps it frozen (15 R439, R441). -/
def State.ctxFrozen (s : State) (p asid : Nat) : Bool :=
  match s.logSlotOf p asid with
  | none => false
  | some (_, g) => g.frozen
/-- GANG_START (10 R339): every strand of the gang becomes ready, once a seam the launch opens is open and unless the context is frozen. -/
def execGangStart (o : EvGang) (s : State) : Out :=
  .next (match s.gangOf o.p o.n o.gang with
    | none => s
    | some (x, l, n, g) =>
      if g.started || g.stopping || l.startSeam || l.stopping || x.newMap.isSome || s.ctxFrozen o.p l.asid then s
      else
        let lns := s.gangLns o.p l g
        let cs := l.gangCores o.p g
        let s := overCores s (fun s c => s.resumeCore c (ofGang l.asid n lns) (recOfGang l.asid n lns)) x.live
        let tsc := match cs with | [] => 0 | c :: _ => s.now c
        let s := s.modGang o.p o.n o.gang (fun g => { g with started := true, startTsc := tsc })
        (s.modLaunch o.p o.n (fun l =>
          Launch.settle { l with startedGangs := l.startedGangs + b01 (!g.resumed) })).traceAll 7 n (o.gang % 2 ^ 32) cs)

/-! ### Pre-emption (06 R202; 10 R340, R485) -/

/-- Pool records of a context in use or promised. -/
def Partition.poolUsed (x : Partition) (asid : Nat) : List Word :=
  ((x.launches.filter (fun l => l.asid = asid)).map (fun l => (l.saved.map (·.recs)).flatten)).flatten
def Partition.poolPromised (x : Partition) (asid : Nat) : Nat :=
  ((x.launches.filter (fun l => l.asid = asid)).map (fun l =>
    (l.gangs.filter (·.stopping)).length * ((recGw l.words + 1) * (recGh l.words + 1)))).sum
/-- VA of a record of the pool (09 R475; log 31). -/
def poolVa (k : Context) (i : Nat) : Word := k.save + wd (2 ^ 21 * i)
/-- The lowest free records of a pool. -/
def Partition.poolTake (x : Partition) (k : Context) (n : Nat) : Option (List Word) :=
  let used := x.poolUsed k.asid
  let r := (((span 0 (used.length + n)).filter (fun i => i < k.savecnt)).map (poolVa k)).filter (fun v => !used.contains v)
  if r.length ≥ n then some (r.take n) else none
def Partition.poolRoom (x : Partition) (k : Context) (n : Nat) : Bool :=
  (x.poolUsed k.asid).length + x.poolPromised k.asid + n ≤ k.savecnt
/-- The pool has room for n records more, and their pages can be written (10 R340; log 31). -/
def State.poolReady (s : State) (p : Nat) (x : Partition) (k : Context) (n : Nat) : Bool :=
  x.poolRoom k n &&
  (match s.lnCore p k.home, x.poolTake k (x.poolPromised k.asid + n) with
  | some h, some vas => vas.all (fun va => match s.blocks 514 (homeCtx h k.asid) va 0 (2 ^ 21) kWrite 0 with
      | .ok _ _ => true
      | _ => false)
  | _, _ => false)
def Launch.gangSize (l : Launch) : Nat := (recGw l.words + 1) * (recGh l.words + 1)

/-- What a crew core keeps for a launch slot is released. -/
def Core.dropCrew (k : Core) (slot : Nat) : Core :=
  { k with crews := k.crews.filter (fun x => x.1 != slot), hpairs := k.hpairs.filter (fun x => x.1 != slot),
           chans := k.chans.filter (fun x => x.lslot != slot) }
/-- A gang of launch slot n leaves every core: its strands, vector contexts and records, and on its crew cores its crews and the rings of
its context (06 R204; 09 R324; 10 R485). -/
def State.vacate (s : State) (p asid n : Nat) (lns : List Nat) (crewCores : List CoreId) : State :=
  let s := overCores s (fun s c => s.dropSaved c (ofGang asid n lns) (recOfGang asid n lns)) (s.coresOf p)
  overCores s (fun s c => (s.dropRings c asid).modCore c (fun k => k.dropCrew n)) crewCores
/-- The device as it would stand without a gang. -/
def State.withoutGang (s : State) (p : Nat) (l : Launch) (g : Gang) : State :=
  match l.slot with
  | none => s
  | some n => s.vacate p l.asid n (s.gangLns p l g) (l.gangCores p g)

/-- A gang is stopped before another (10 R340). -/
def victimBefore (a b : Launch × Gang) : Bool :=
  if a.1.level != b.1.level then a.1.level < b.1.level
  else if a.2.startTsc != b.2.startTsc then a.2.startTsc > b.2.startTsc
  else if a.2.no != b.2.no then a.2.no > b.2.no
  else a.1.asid > b.1.asid
def insertVictim (v : Launch × Gang) : List (Launch × Gang) → List (Launch × Gang)
  | [] => [v]
  | x :: t => if victimBefore v x then v :: x :: t else x :: insertVictim v t
/-- The gangs that may be pre-empted by a launch at level p, in order. -/
def Partition.victims (x : Partition) (level : Nat) : List (Launch × Gang) :=
  ((x.launches.filter (fun l => recPreemptible l.words && l.level < level && l.slot.isSome && !l.stopping)).map (fun l =>
    (l.gangs.filter (fun g => g.started && !g.stopping)).map (fun g => (l, g)))).flatten.foldl (fun acc v => insertVictim v acc) []

def markStopping (x : Partition) (order no : Nat) : Partition :=
  { x with launches := x.launches.map (fun l =>
      if l.order = order then { l with gangs := l.gangs.map (fun g => if g.no = no then { g with stopping := true } else g) } else l) }
/-- Victims are chosen until a rectangle is free; none when it never is. `h` is the device without those chosen. -/
def chooseVictims (p : Nat) (l : Launch) (slot : Nat) : State → Partition → List (Launch × Gang) → Option Partition
  | _, _, [] => none
  | h, x, (v, g) :: t =>
    match x.contexts.find? (fun k => k.asid = v.asid) with
    | none => chooseVictims p l slot h x t
    | some k =>
      if !h.poolReady p x k v.gangSize then chooseVictims p l slot h x t
      else
        let x := markStopping x v.order g.no
        let h := h.withoutGang p v g
        if (h.rectFor p l slot).isSome then some x else chooseVictims p l slot h x t

/-- PREEMPT_VICTIMS (10 R340): the selected launch finds no rectangle and may pre-empt. -/
def execPreemptVictims (o : EvPartN) (s : State) : Out :=
  .next (match s.part o.p with
    | none => s
    | some x =>
      match x.head with
      | none => s
      | some l =>
        if l.order != o.n || x.shut || x.launches.any (fun y => y.gangs.any (·.stopping)) then s
        else match l.slot, s.context o.p l.asid with
          | some slot, some k =>
            if k.preempt / 2 ^ l.level % 2 = 0 || (s.rectFor o.p l slot).isSome then s
            else match chooseVictims o.p l slot s x (x.victims l.level) with
              | none => s
              | some x => s.setPart o.p x
          | _, _ => s)

/-- PREEMPTION_STOP (06 R202; 10 R485): the strands and units of a gang stop at their boundaries, on every core. -/
def execPreemptionStop (o : EvGang) (s : State) : Out :=
  .next (match s.gangOf o.p o.n o.gang with
    | none => s
    | some (x, l, n, g) =>
      if !g.stopping then s
      else
        let lns := s.gangLns o.p l g
        overCores s (fun s c => s.stopCore c (ofGang l.asid n lns) (recOfGang l.asid n lns)) x.live)

/-- A coat of a launch slot is on its way. -/
def State.coatMoving (s : State) (p slot : Nat) : Bool :=
  s.net.any (fun m => match m.body with
    | .coat x => x.st.lslot = some slot && s.partOf m.dst = p
    | .bounced x => x.st.lslot = some slot && s.partOf m.dst = p
    | .admitted _ => false
    | _ => false)
/-- A barrier message of a launch slot is on its way to or from a core of a list, or a fault record of it to the dispatcher. -/
def State.barMoving (s : State) (slot : Nat) (cs : List CoreId) : Bool :=
  s.net.any (fun m => (cs.contains m.dst || cs.contains m.src) && (match m.body with
    | .faultRec _ l _ => l = slot
    | .crewArrive l _ _ => l = slot
    | .crewExit l _ => l = slot
    | .crewDone _ l _ _ _ => l = slot
    | .crewDoneAck l _ => l = slot
    | .gangArrive l _ _ _ _ => l = slot
    | _ => false))
/-- The gang is fully stopped (10 R485). -/
def State.gangStill (s : State) (x : Partition) (p : Nat) (l : Launch) (n : Nat) (g : Gang) : Bool :=
  let lns := s.gangLns p l g
  !s.coatMoving p n && !s.barMoving n (l.gangCores p g) &&
  x.live.all (fun c => (s.core c).allStopped (ofGang l.asid n lns) (recOfGang l.asid n lns))

/-- What the record of one core of a gang holds: its own entries, then those of its crew that stand outside the rectangle
(10 R485). -/
def State.gangSet (s : State) (x : Partition) (asid n : Nat) (lns : List Nat) (cs : List CoreId) (c : CoreId) : SaveSet :=
  let own := (s.core c).saveSet (ofGang asid n lns) (recOfGang asid n lns)
  let mine := [(s.core c).cfg.ln]
  (x.live.filter (fun d => !cs.contains d)).foldl (fun a d =>
    a.append ((s.core d).saveSet (ofGang asid n mine) (recOfGang asid n mine))) own

/-- Writing the records of a gang: done, a page that cannot be written, or a translation that is made again later. -/
inductive Saving where
  | ok (s : State)
  | failed
  | wait
/-- Each core's record is written to the pool. -/
def State.saveCores (s : State) (x : Partition) (k : Context) (h : CoreId) (n : Nat) (lns : List Nat) (all : List CoreId) :
    List CoreId → List Word → Saving
  | c :: cs, va :: vs =>
    let s := State.closeAll (s.core c).merges.length s c
    let r := s.recordImage c k.asid [wd (n * 65536 + k.asid), 0] (s.gangSet x k.asid n lns all c) true
    match s.blocks (blockFuel r.2) (homeCtx h k.asid) va 0 r.2 kWrite 0 with
    | .ok bs s =>
      (s.putBlocks r.1 { asid := k.asid, log := false, leaf := 0, kind := 3, strand := false, ref := none } bs).saveCores x k h n lns
        all cs vs
    | .fault _ _ => .failed
    | .wait _ => .wait
  | _, _ => .ok s

/-- Numeric event counters of a slot summed over a partition, saturating (10 R337, R349). -/
def State.numTotals (s : State) (cs : List CoreId) (slot : Nat) : List Nat :=
  (span 0 8).map (fun i => min (2 ^ 32 - 1) ((cs.map (fun c => tblGet 0 (s.core c).numevt (8 * slot + i))).sum))
def addTotals (carried : List (Nat × Nat)) (l : List Nat) : List (Nat × Nat) :=
  (List.zip (span 0 8) l).map (fun x => (x.1, min (2 ^ 32 - 1) (tblGet 0 carried x.1 + x.2)))

/-- Cached crew descriptors of a launch slot are dropped (07 R220). -/
def State.dropDescs (s : State) (cs : List CoreId) (slot : Nat) : State :=
  overCores s (fun s c => s.modCore c (fun k => { k with descs := k.descs.filter (fun d => d.2.1 != slot) })) cs
/-- A launch gives up its slot when every gang it has started is saved, or has ended (10 R337). -/
def State.freeIfSaved (s : State) (p order : Nat) : State :=
  match s.part p with
  | none => s
  | some x =>
    match x.launch order with
    | none => s
    | some l =>
      match l.slot with
      | some n =>
        if l.saved.isEmpty || l.stopping then s
        else if l.gangs.isEmpty then
          s.modLaunch p order (fun l => { l with carried := addTotals l.carried (s.numTotals x.live n), slot := none, state := .placing })
        else s.modLaunch p order (fun l => { l with state := .placing })
      | none => s

/-- A stopped gang is saved and leaves its cores (10 R340, R485). -/
def State.saveGang (s : State) (x : Partition) (p : Nat) (l : Launch) (n : Nat) (g : Gang) : Saving :=
  match s.context p l.asid with
  | none => .failed
  | some k =>
    match s.lnCore p k.home, x.poolTake k l.gangSize with
    | some h, some vas =>
      let lns := s.gangLns p l g
      let cs := l.gangCores p g
      let chans := ((List.zip (span 0 cs.length) cs).map (fun e =>
        ((s.core e.2).chans.filter (fun y => y.lslot = n)).map (fun y => (e.1, y)))).flatten
      let crews := (List.zip (span 0 cs.length) cs).filterMap (fun e =>
        match List.lookup n (s.core e.2).crews with | none => none | some y => some (e.1, y))
      (match s.saveCores x k h n lns cs cs vas with
      | .failed => .failed
      | .wait => .wait
      | .ok s =>
        let s := s.vacate p l.asid n lns cs
        let sg : SavedGang := { no := g.no, started := g.started || g.resumed, recs := vas, x0 := g.x0, y0 := g.y0, chans := chans, crews := crews }
        let s := (s.dropDescs x.live n).modLaunch p l.order (fun l =>
          { l with gangs := l.gangs.filter (fun y => y.no != g.no), saved := l.saved ++ [sg] })
        .ok (s.freeIfSaved p l.order))
    | _, _ => .failed

/-- GANG_SAVE. A gang whose pool cannot be written runs on (log 31); one whose pool pages an invalidation holds is saved after it. -/
def execGangSave (o : EvGang) (s : State) : Out :=
  .next (match s.gangOf o.p o.n o.gang with
    | none => s
    | some (x, l, n, g) =>
      if !g.stopping || l.stopping || !s.gangStill x o.p l n g then s
      else
        match s.saveGang x o.p l n g with
        | .ok s => s
        | .wait => s
        | .failed =>
          let lns := s.gangLns o.p l g
          overCores (s.modGang o.p o.n o.gang (fun g => { g with stopping := false }))
            (fun s c => s.resumeCore c (ofGang l.asid n lns) (recOfGang l.asid n lns)) x.live)

/-! ### Ends of crews and gangs (10 R345) -/

/-- A strand with the crew's (CLN, LSLOT) is alive somewhere. -/
def State.crewAlive (s : State) (cs : List CoreId) (p asid slot ln : Nat) : Bool :=
  let is : Strand → Bool := fun st => inSlot asid slot st && st.cln = ln
  cs.any (fun c =>
    let k := s.core c
    !(k.strandsOf is).isEmpty || k.departures.any (fun d => is d.2.coat.st)) ||
  s.net.any (fun m => s.partOf m.dst = p && (match m.body with | .coat x => is x.st | .bounced x => is x.st | _ => false))

/-- CREW_END: the crew of launch n on core o.c. -/
def execCrewEnd (o : EvCrew) (s : State) : Out :=
  .next (match s.part o.p with
    | none => s
    | some x =>
      match x.launch o.n with
      | none => s
      | some l =>
        match l.slot, l.gangs.find? (fun g => (l.gangCores o.p g).contains o.c && !g.ended.contains o.c) with
        | some n, some g =>
          let ln := (s.core o.c).cfg.ln
          if !(g.started || l.stopping) || g.stopping || s.crewAlive x.live o.p l.asid n ln ||
              (s.core (s.standIn o.c)).records.any (fun r => recInSlot l.asid n r.2) then s
          else
            let s := (s.modCore o.c (fun k => k.dropCrew n)).modCore (s.standIn o.c) (fun k => k.dropCrew n)
            let s := overCores s (fun s c => s.modCore c (fun k =>
              { k with descs := k.descs.filter (fun d => !(d.1 = ln && d.2.1 = n)) })) x.live
            let done := (l.gangCores o.p g).all (fun c => c = o.c || g.ended.contains c)
            if done then
              let s := s.traceAll 8 n (g.no % 2 ^ 32) (l.gangCores o.p g)
              (s.modLaunch o.p o.n (fun l =>
                Launch.settle { l with gangs := l.gangs.filter (fun y => y.no != g.no), endedGangs := l.endedGangs + 1 })).freeIfSaved
                o.p o.n
            else s.modGang o.p o.n g.no (fun g => { g with ended := g.ended ++ [o.c] })
        | _, _ => s)

/-! ### Faults (06 R188 to R190) -/

def FaultRec.before (a b : FaultRec) : Bool :=
  if a.tsc != b.tsc then a.tsc < b.tsc else if a.ln != b.ln then a.ln < b.ln else a.sid < b.sid

/-- Dumps are on for a partition: DUMPCTL of its first core (15 R451). -/
def State.dumpOn (s : State) (p : Nat) : Bool :=
  match s.lnCore p 0 with
  | none => false
  | some c => bitAt (s.core c).cfg.dumpctl 63

/-- A launch joins the queue of dumps, or is skipped (15 R452). -/
def State.queueDump (s : State) (p order : Nat) : State :=
  match s.part p with
  | none => s
  | some x =>
    if !s.dumpOn p then s
    else
      let waiting := (x.dumpQueue.filterMap x.launch).map (·.asid)
      let asid := match x.launch order with | none => 0 | some l => l.asid
      if waiting.contains asid || x.dumpQueue.length < 17 then
        (s.setPart p { x with dumpQueue := x.dumpQueue ++ [order] }).modLaunch p order (fun l => { l with dumping := true })
      else s.setPart p { x with dumpSkips := x.dumpSkips + 1 }

/-- A launch that ends saves no gang any more (10 R350). -/
def Launch.stopAll (l : Launch) : Launch :=
  { l with stopping := true, gangs := l.gangs.map (fun g => { g with stopping := false }) }
/-- A fault of a launch as the dispatcher takes it: the first stops the launch, later ones are compared and counted. -/
def State.noteFault (s : State) (p order : Nat) (f : FaultRec) : State :=
  match s.part p with
  | none => s
  | some x =>
    match x.launch order with
    | none => s
    | some l =>
      match l.fault with
      | none => (s.modLaunch p order (fun l => { l.stopAll with fault := some f })).queueDump p order
      | some g => s.modLaunch p order (fun l =>
          { l with fault := some (if f.before g then f else g), more := min (l.more + 1) 0xFFFF })

/-- FAULT_RECORD_ARRIVAL. -/
def execFaultRecordArrival (o : EvMsg) (s : State) : Out :=
  s.onMsg o.i (fun m s =>
    match m.body with
    | .faultRec p slot f =>
      let s := s.receive o.i m
      (match s.part p with
       | none => s
       | some x =>
         match x.slotLaunch slot with
         | none => s
         | some l => s.noteFault p l.order f)
    | _ => s)

/-- The queue binding of an ended strand leaves its rings. -/
def Core.unbind (k : Core) (st : Strand) : Core :=
  match st.qb with
  | none => k
  | some q => { k with rings := k.rings.map (fun r =>
      (r.1, { r.2 with qin := r.2.qin && !(q.inEn && q.inRing = r.1), qout := r.2.qout && !(q.outEn && q.outRing = r.1) })) }
def State.cancelRecords (s : State) (c : CoreId) : List (Nat × Record) → State
  | [] => s
  | (i, r) :: t => (s.endRecord c i r .cancelled).cancelRecords c t
/-- Everything of a launch slot on a core ends (06 R189 step 3). -/
def State.endOnCore (s : State) (asid slot : Nat) (c : CoreId) : State :=
  let k := s.core c
  let p := inSlot asid slot
  let gone := (k.slots.map (·.2) ++ k.frozen.map (·.2.st)).filter p
  let k := gone.foldl (fun k st => (k.dropVector st).unbind st) k
  let s := s.setCore c { k with
    slots := k.slots.filter (fun x => !p x.2), frozen := k.frozen.filter (fun x => !p x.2.st),
    cloak := k.cloak.filter (fun x => !p x.st), spill := k.spill.filter (fun x => !p x.st),
    rescue := (match k.rescue with | none => none | some x => if p x.st then none else some x),
    admitting := k.admitting.filter (fun x => !p x.st), departures := k.departures.filter (fun d => !(d.2.landed && p d.2.coat.st)) }
  State.refill 32 (s.cancelRecords c ((s.core c).records.filter (fun r => recInSlot asid slot r.2))) c
/-- Requests of ended strands leave the waiter tables. -/
def State.dropWaiters (s : State) (uids : List Nat) (c : CoreId) : State :=
  s.modCore c (fun k => { k with waiters := k.waiters.filter (fun w => !uids.contains w.ref.uid) })

/-- LAUNCH_STOP (06 R189; 10 R350; 15 R452): launch n ends on every core, or is held stopped while it is dumped. -/
def execLaunchStop (o : EvPartN) (s : State) : Out :=
  .next (match s.part o.p with
    | none => s
    | some x =>
      match x.launch o.n with
      | none => s
      | some l =>
        match l.stopping, l.slot with
        | true, some n =>
          if l.dumping then overCores s (fun s c => s.stopCore c (inSlot l.asid n) (recInSlot l.asid n)) x.live
          else
            let uids := (x.live.map (fun c => ((s.core c).slots.filter (fun y => inSlot l.asid n y.2)).map (fun y => y.2.uid))).flatten
            let s := overCores s (fun s c => s.endOnCore l.asid n c) x.live
            let s := if uids.isEmpty then s else (s.cores.map (fun e => coreOfKey e.1)).foldl (fun s c => s.dropWaiters uids c) s
            s.modLaunch o.p o.n (fun l => Launch.settle { l with saved := [] })
        | _, _ => s)

/-- DESCRIPTOR_DROP (07 R220): launch slot n on every core. -/
def execDescriptorDrop (o : EvPartN) (s : State) : Out := .next (s.dropDescs (s.coresOf o.p) o.n)

/-! ### Counting sweeps and completion (10 R346 to R349) -/

/-- The sums of a sweep: SENT, RECV, and whether every core is idle. -/
def State.sweepSums (s : State) (cs : List CoreId) (slot : Nat) : Nat × Nat × Bool :=
  cs.foldl (fun a c =>
    let k := s.core c
    let x := tblGet { sent := 0, recv := 0 } k.lctr slot
    (a.1 + x.sent, a.2.1 + x.recv, a.2.2 && k.idle slot)) (0, 0, true)

/-- COUNTING_SWEEP: launch slot n; two equal clean sweeps in different periods declare the end. -/
def execCountingSweep (o : EvPartN) (s : State) : Out :=
  .next (match s.part o.p with
    | none => s
    | some x =>
      match x.slotLaunch o.n with
      | none => s
      | some l =>
        match l.state with
        | .sweeping =>
          let r := s.sweepSums x.live o.n
          if !r.2.2 || r.1 != r.2.1 || !l.gangs.isEmpty then s.modLaunch o.p l.order (fun l => { l with sweep := none })
          else
            (match l.sweep with
            | none => s.modLaunch o.p l.order (fun l => { l with sweep := some (r.1, r.2.1, x.period) })
            | some (a, b, t) =>
              if t = x.period then s
              else if a = r.1 && b = r.2.1 then s.modLaunch o.p l.order (fun l => { l with state := .completing })
              else s.modLaunch o.p l.order (fun l => { l with sweep := some (r.1, r.2.1, x.period) }))
        | _ => s)

def Launch.endCode (l : Launch) : EndState := if l.cancelled || l.torn then .cancelled else if l.fault.isSome then .faulted else .done

/-- The completion record's doublewords (10 R349). -/
def completionWords (l : Launch) (tsc : Nat) (t : List Nat) : List Word :=
  let f := l.fault
  let kind := match f with | none => 0 | some f => f.kind
  let reason := match f with | none => 0 | some f => f.reason
  let ln := match f with | none => 0 | some f => f.ln
  let n : Nat → Nat := fun i => t.getD i 0
  [wd (l.endCode.code * 2 ^ 60 + kind * 2 ^ 52 + reason * 2 ^ 44 + ln * 2 ^ 28 + l.endedGangs), wd tsc,
   wd (n 0 * 2 ^ 32 + n 1), wd (n 2 * 2 ^ 32 + n 3), wd (n 4 * 2 ^ 32 + n 5), wd (n 6 * 2 ^ 32 + n 7),
   (match f with | none => 0 | some f => f.pc), (match f with | none => 0 | some f => f.addr)]

/-- The record at DONE: everything after STATUS first, then STATUS (10 R348); none while an invalidation holds its translation. -/
def State.writeDone (s : State) (p : Nat) (l : Launch) (h : CoreId) (t : List Nat) : Option State :=
  if recDone l.words = 0 || l.torn then some s
  else match s.resolve { homeCtx h l.asid with priv := false } Strand.fresh .va (recDone l.words) 0 kWrite 0 with
    | .ok pa leaf s =>
      let w : Writer := { asid := l.asid, log := false, leaf := leaf, kind := 3, strand := false, ref := none }
      let ws := completionWords l (s.now h) t
      let bytes := (ws.map (fun v => leBytes 8 v.toNat)).flatten
      some ((s.writePa (pa + 8) (bytes.drop 8) w).writePa pa (bytes.take 8) w)
    | .wait _ => none
    | .fault _ s => some (s.modPart p (fun x => { x with errors := x.errors + 1 }))

/-- The release at PART scope that a completion makes: every mirror update of the partition has been applied (10 R348 step 1; 13 R399). -/
def State.updatesDone (s : State) (p : Nat) : Bool :=
  s.net.all (fun m => match m.body with | .mirrorUpdate _ _ _ _ => s.partOf m.dst != p | _ => true)
/-- A teardown ends when no launch of the context is left: the context goes (10 R351). -/
def State.endTear (s : State) (p asid : Nat) : State :=
  s.modPart p (fun x =>
    if x.tearing.contains asid && x.launches.all (fun l => l.asid != asid) then
      { x with tearing := x.tearing.filter (· != asid), contexts := x.contexts.filter (fun y => y.asid != asid) }
    else x)
/-- The write queues that hold a reduction of a launch slot drain. -/
def State.drainLaunch (s : State) (p : Nat) (slot : Option Nat) (cs : List CoreId) : State :=
  match slot with
  | none => s
  | some n => s.drainWhere (fun g => g.tags.contains ⟨p, n⟩) cs
/-- A launch ends: the release, the record, the board entry, the slot (10 R348); the rest stands as it was while a step of this waits. -/
def State.finishLaunch (s : State) (p : Nat) (x : Partition) (l : Launch) : State :=
  match s.context p l.asid, s.lnCore p l.home with
  | some _, some h =>
    let s := s.drainLaunch p l.slot x.live
    let sums := match l.slot with | none => [] | some n => s.numTotals x.live n
    if !s.updatesDone p then s
    else match s.writeDone p l h ((addTotals l.carried sums).map (·.2)) with
      | none => s
      | some s =>
        let s := s.boardEndOf h l.bslot l.seq l.endCode l.endedGangs l.boardInfo
        let s := match l.slot with
          | none => s
          | some n => overCores (s.dropDescs x.live n) (fun s c => s.modCore c (fun k => k.dropCrew n)) x.live
        let s := s.trace h 9 (l.slot.getD 0) (mkHandle 2 l.home l.bslot l.seq).toNat
        (s.modPart p (fun x => { x with launches := x.launches.filter (fun y => y.order != l.order) })).endTear p l.asid
  | _, _ => s

/-- LAUNCH_COMPLETE (10 R348). -/
def execLaunchComplete (o : EvPartN) (s : State) : Out :=
  .next (match s.part o.p with
    | none => s
    | some x =>
      match x.launch o.n with
      | none => s
      | some l =>
        match l.state with
        | .completing => s.finishLaunch o.p x l
        | _ => s)

/-- LAUNCH_DEP_RESOLVED (10 R336, R353): both dependences have ended, and the launch is queued; one has failed, and it ends CANCELLED. -/
def execLaunchDepResolved (o : EvPartN) (s : State) : Out :=
  .next (match s.part o.p with
    | none => s
    | some x =>
      match x.launch o.n with
      | none => s
      | some l =>
        match l.state with
        | .waitdep =>
          (match s.deps o.p (recDeps l.words) with
          | .waiting => s
          | .met => s.modLaunch o.p o.n (fun l => { l with state := .queued, entered := s.cycle })
          | .failed => s.finishLaunch o.p x { l with cancelled := true })
        | _ => s)

/-! ### The wheel's periods (12 R382, R384, R385) -/

/-- The wheel's next period begins one period after the last (12 R383). -/
def State.nextPeriod (s : State) (x : Partition) : Partition :=
  let len := match x.live with | [] => 0 | c :: _ => 2 * fld (s.core c).cfg.wheelcfg 12 0
  { x with period := x.period + 1, wheelNext := x.wheelNext + len }
/-- The groom of the partition's lowest field, whose TSC is the reference (12 R385). -/
def State.timeGroom (s : State) (p : Nat) (x : Partition) : Option CoreId :=
  match s.cores.find? (fun e => e.2.cfg.groom && e.2.live && fieldNo (coreOfKey e.1) = waferOfPart p * 80 + x.fy0 * 10 + x.fx0) with
  | none => none
  | some e => some (coreOfKey e.1)
/-- TSC_SYNC: slot 0 of the next wheel period carries the reference; a core that is behind moves up to it, and one that is ahead holds
its count for a tick; none steps backward (12 R385; log 12). -/
def execTscSync (o : EvPart) (s : State) : Out :=
  .next (match s.part o.p with
    | none => s
    | some x =>
      let s := s.setPart o.p (s.nextPeriod x)
      match s.timeGroom o.p x with
      | none => s
      | some g =>
        let ref := s.now g
        overCores s (fun s c => s.modCore c (fun k =>
          let t := s.now c
          if t < ref then { k with tscOff := k.tscOff + (ref - t : Nat), tscHold := false } else { k with tscHold := t > ref }))
          (s.coresOf o.p))

/-- The LN a core takes under a new map: its own, or 0 for one that has left (log 35). -/
def newLn (old new : List CoreId) (ln : Nat) : Nat :=
  match old[ln]? with
  | none => 0
  | some c => (indexOf (fun d => d = c) new 0).getD 0
/-- COREID.LN, PROXY and PARTFEAT of the live cores (07 R231, R234; log 35). -/
def State.numberCores (feat : Nat) (proxy : Word) : Nat → State → List CoreId → State
  | _, s, [] => s
  | i, s, c :: t =>
    State.numberCores feat proxy (i + 1)
      (s.modCore c (fun k => { k with cfg := { k.cfg with ln := i, partfeat := feat, proxy := proxy } })) t
/-- The first core with a feature is its proxy; 0xFFFF is NONE (log 35). -/
def State.proxyFor (s : State) (l : List CoreId) (bit : Nat) : Nat :=
  (indexOf (fun c => let m := (s.core c).cfg.mask; if bit = 3 then m / 8 % 4 != 0 else m / 2 ^ bit % 2 = 1) l 0).getD 0xFFFF
/-- The live map's place: a stretch of the DRAM of the partition's first core (12 R381; log 35). -/
def mapBase (live : List CoreId) : Nat := match live with | [] => 0 | c :: _ => coreBase c + 0x1FEC0000
/-- A new live map is in force: every core's copy, LNs, and the homes of contexts and launches, which stay on their cores. -/
def State.adoptMap (s : State) (p : Nat) (l : List CoreId) : State :=
  match s.part p with
  | none => s
  | some x =>
    let f := newLn x.live l
    let feat := l.foldl (fun m c => m ||| (s.core c).cfg.mask) 1
    let proxy := wd (s.proxyFor l 3 * 2 ^ 32 + s.proxyFor l 2 * 65536 + s.proxyFor l 1)
    let s := s.setPart p { x with
      live := l, newMap := none, contexts := x.contexts.map (fun k => { k with home := f k.home }),
      launches := x.launches.map (fun y => { y with home := f y.home }), retired := x.retired.map (fun r => (f r.1, f r.2)) }
    let s := overCores s (fun s c => s.modCore c (fun k =>
      if k.cfg.fwdValid then { k with cfg := { k.cfg with heir := f k.cfg.heir } } else k)) x.live
    State.numberCores feat proxy 0 s l

end Sys2Proof.Machine
end

