-- ==== Sys2Proof/Machine/Rings.lean ====
section
/-! DEFINITION. Ring instructions, remote appends and credits, deques, register-mapped queues and byte-count barriers
(09 R278 to R294, R304). -/
namespace Sys2Proof.Machine
open Sys2Proof

/-- The ring a local operation names, or the fault of 09 R278. -/
def State.ringFor (s : State) (c : CoreId) (st : Strand) (a : Word) : Option Ring :=
  match s.ring c (fld a 3 0) with
  | none => none
  | some r => if r.asid = st.asid then some r else none
def fRing (a : Word) : FaultInfo := fAccess (wd (fld a 3 0)) 0

/-- A local ring operation on the ring of g[a] (09 R278, R282), as it stands once the operands have been popped (09 R294). -/
def State.ringOp (s : State) (g : Guard) (srcs : List Reg) (dst : Option Reg)
    (k : CoreId → Nat → Strand → List Word → (State → State) → Ring → State → State) : State :=
  s.issue g none srcs srcs dst (fun c n st v commit s =>
    match s.ringFor c st (v0 v) with
    | none => s.takeFault c n st (fRing (v0 v))
    | some _ =>
      match (commit s).ring c (fld (v0 v) 3 0) with
      | none => s.takeFault c n st (fRing (v0 v))
      | some r => k c n st v commit r s)

/-- RCLAIM (09 R282). -/
def execRclaim (o : OpDAB) (s : State) : Out :=
  .next (s.ringOp o.g [o.a, o.b] (some o.d) (fun c n st v commit r s =>
    let k := (v1 v).toNat
    if 1 ≤ k ∧ k ≤ r.free then
      ((commit s).setRing c (fld (v0 v) 3 0) { r with claim := (r.claim + k) % 65536 }).writeBack c n (st.setP3 true) (some o.d)
        (wd (r.addr r.claim))
    else (commit s).complete c n (st.setP3 false)))

/-- RPUB (09 R282): a release (09 R281; log 24). -/
def execRpub (o : OpAB) (s : State) : Out :=
  .next (s.ringOp o.g [o.a, o.b] none (fun c n st v commit r s =>
    let k := (v1 v).toNat
    let s := s.drainQueue c st
    if !s.quiet c st false then s.block c n st .mem
    else if 1 ≤ k ∧ k ≤ r.unready.length then
      ((commit s).ringReady c (fld (v0 v) 3 0) r (r.unready.take k) (strandWriter c n st 0)).complete c n (st.setP3 true)
    else (commit s).complete c n (st.setP3 false)))

/-- RPOP (09 R282): a release (09 R281; log 24). -/
def execRpop (o : OpAB) (s : State) : Out :=
  .next (s.ringOp o.g [o.a, o.b] none (fun c n st v commit r s =>
    let k := (v1 v).toNat
    let s := s.drainQueue c st
    if !s.quiet c st false then s.block c n st .mem
    else if 1 ≤ k ∧ k ≤ r.avail then
      ((commit s).ringPop c (fld (v0 v) 3 0) k (strandWriter c n st 0)).complete c n (st.setP3 true)
    else (commit s).complete c n (st.setP3 false)))

/-- RPEEK (09 R282). -/
def execRpeek (o : OpDAB) (s : State) : Out :=
  .next (s.ringOp o.g [o.a, o.b] (some o.d) (fun c n st v commit r s =>
    if (v1 v).toNat < r.avail then
      (commit s).writeBack c n (st.setP3 true) (some o.d) (wd (r.addr (r.head + (v1 v).toNat)))
    else (commit s).complete c n (st.setP3 false)))

/-- RWAITF and RWAITE (09 R282, R285): d holds the limit. -/
def State.ringWait (s : State) (o : OpDAB) (fn : Nat) (have' : Ring → Nat) : State :=
  s.ringOp o.g [o.a, o.b, o.d] none (fun c n st v commit r s =>
    s.waitHere c n st (v2 v) (have' r ≥ (v1 v).toNat)
      #v[wd (fld (v0 v) 3 0), v1 v, wd (have' r), expiryInfo 3 1 fn 0] commit)
def execRwaitf (o : OpDAB) (s : State) : Out := .next (s.ringWait o 0 Ring.avail)
def execRwaite (o : OpDAB) (s : State) : Out := .next (s.ringWait o 1 Ring.free)

def Ring.inUse (r : Ring) : Bool := r.taskref != 0 || r.qin || r.qout
/-- RSTAT's word (09 R284). -/
def Ring.statWord (r : Ring) : Word :=
  wd (r.head * 2 ^ 48 + r.pub * 2 ^ 32 + r.claim * 65536 + r.mode * 2 ^ 14 + 2 ^ 13 + b01 r.inUse * 2 ^ 12 + r.entries)
/-- RSTAT (09 R284). -/
def execRstat (o : OpDA) (s : State) : Out :=
  .next (s.issue o.g none [o.a] [o.a] (some o.d) (fun c n st v commit s =>
    let w := match s.ringFor c st (v0 v) with
      | none => 0
      | some r => r.statWord
    (commit s).writeBack c n st (some o.d) w))

/-- The ring a descriptor describes (09 R276, R283). -/
def ringOfDesc (asid : Nat) (d0 d1 : Word) : Ring :=
  let e := 2 ^ fld d0 36 33
  { asid := asid, mode := fld d0 46 45, sizem1 := fld d0 44 37, logent := fld d0 36 33, base := fld d0 19 0, head := 0, pub := 0,
    claim := 0, granted := 0, cbatch := if fld d1 15 0 = 0 then max (e / 4) 1 else fld d1 15 0, pword := 0, cword := 0,
    qout := false, qin := false, taskref := 0, waiters := [], ready := [] }
/-- The refusals of RCFG (09 R283). -/
def rcfgRefused (old : Option Ring) (asid : Nat) (d0 : Word) (new : Ring) : Bool :=
  (match old with
    | none => false
    | some r => r.asid != asid || r.taskref != 0 || r.qin || r.qout || r.granted != 0) ||
  (bitAt d0 47 && (new.mode = 3 || new.logent > 10 || new.base % 64 != 0 || new.base + new.entries * new.size > 2 ^ 20))
/-- Every granule of the entry area (09 R283). -/
def Ring.area (r : Ring) (c : CoreId) : List Nat :=
  span ((coreBase c + 0x20000000 + r.base) / 16) (r.entries * r.size / 16)

/-- RCFG (09 R283). -/
def execRcfg (o : OpAB) (s : State) : Out :=
  .next (s.issue o.g none [o.a, o.b] [o.a, o.b] none (fun c n st v commit s =>
    if (v1 v).toNat % 16 != 0 then s.takeFault c n st (fAlign (v1 v) 16)
    else match s.readVa c n st (v1 v) 16 (memberInfo 3 1 3) with
      | .wait s => s
      | .fault f s => s.takeFault c n st f
      | .ok b s =>
        let s := commit s
        let i := fld (v0 v) 3 0
        let r := ringOfDesc st.asid (dwAt b 0) (dwAt b 8)
        if rcfgRefused (s.ring c i) st.asid (dwAt b 0) r then s.complete c n (st.setP3 false)
        else
          let s := s.modCore c (fun k => { k with rings := k.rings.filter (fun e => e.1 != i) })
          let s :=
            if !bitAt (dwAt b 0) 47 then s
            else
              let s := s.setRing c i r
              if r.isFed then (s.put c [] ((r.area c).map (fun g => (g, false))) (strandWriter c n st 0)).1 else s
          s.complete c n (st.setP3 true)))

/-! ### Remote appends and credits -/

def twCidx (t : Word) : Nat := fld t 35 32
def twLn (t : Word) : Nat := fld t 31 16
def twRing (t : Word) : Nat := fld t 3 0
def State.credit (s : State) (c : CoreId) (i : Nat) : Option Credit := List.lookup i (s.core c).credits
def State.setCredit (s : State) (c : CoreId) (i : Nat) (e : Credit) : State :=
  s.modCore c (fun k => { k with credits := tblSet k.credits i e })
/-- VALID is cleared, and the request that was refused is no longer outstanding; the rest of the entry stands (09 R288 to R290). -/
def Credit.drop (e : Credit) : Credit := { e with valid := false, req := false, resend := none }
def State.dropCredit (s : State) (c : CoreId) (i : Nat) : State :=
  match s.credit c i with
  | none => s
  | some e => s.setCredit c i e.drop

/-- A credit request goes out when the entry holds no credit and has asked for none (09 R288). -/
def State.askCredit (s : State) (c : CoreId) (st : Strand) (i : Nat) (e : Credit) : State :=
  if e.credits = 0 && !e.req then
    match s.lnCore (s.partOf c) e.ln with
    | none => s.setCredit c i e.drop
    | some d =>
      let tag := s.tagOf c st.lslot
      (s.setCredit c i { e with req := true, tag := tag }).send c d false tag (.creditReq e.ring e.asid i)
  else s.setCredit c i e

/-- The entry of a credit index bound anew, with CREDITS at 0 (09 R289). -/
def State.bindCredit (s : State) (c : CoreId) (i : Nat) (t : Word) (asid : Nat) : Credit :=
  let e := (s.credit c i).getD { ln := 0, ring := 0, valid := false, req := false, sizem1 := 0, credits := 0, asid := 0, resend := none,
                                 tag := none }
  if e.valid then e else { e with ln := twLn t, ring := twRing t, asid := asid, valid := true, credits := 0 }

/-- RAPP (09 R289): d holds the limit. The entry's bytes are read on HERE, a granule a turn. -/
def execRapp (o : OpDAB) (s : State) : Out :=
  .next (s.issue o.g none [o.a, o.b, o.d] [o.a, o.b, o.d] none (fun c n st v commit s =>
    let t := v0 v
    let off := (v1 v).toNat
    let i := twCidx t
    let e := s.bindCredit c i t st.asid
    if off % 16 != 0 then s.takeFault c n st (fAlign (v1 v) 16)
    else if e.ln != twLn t || e.ring != twRing t || e.asid != st.asid then (commit s).complete c n (st.setP3 false)
    else if !(s.drainQueue c st).quiet c st false then ((s.drainQueue c st).setCredit c i e).block c n st .mem
    else let s := s.drainQueue c st; if e.credits = 0 then
      let d := s.limitAt st (v2 v)
      let s := s.askCredit c st i e
      if s.isDue d then s.expire c n st #v[t, 0, 0, expiryInfo 3 2 0 0] commit
      else s.block c n { st with deadline := d } .msg
    else
      let size := 16 * (e.sizem1 + 1)
      if off < 0x20000000 || off + size > 0x20100000 then s.takeFault c n st (fAccess (v1 v) 0)
      else match s.readBlock c n st .loc kRead 0 (v1 v) size (memberInfo 3 2 0), s.lnCore (s.partOf c) e.ln with
        | .wait s, _ => s
        | .fault f s, _ => s.takeFault c n st f
        | .ok _ s, none => ((commit s).dropCredit c i).complete c n (st.setP3 false)
        | .ok data s, some d =>
          ((commit (s.setCredit c i { e with credits := e.credits - 1 })).putStrand c n
            { st with run := .await .msg (waitFor (.rapp i)), deadline := none }).send c d false (s.tagOf c st.lslot)
            (.append ⟨c, n, st.uid⟩ e.ring e.asid i data)))

/-- RCRED (09 R290). -/
def execRcred (o : OpDA) (s : State) : Out :=
  .next (s.issue o.g none [o.a] [o.a] (some o.d) (fun c n st v commit s =>
    let i := fld (v0 v) 3 0
    match s.credit c i with
    | none => (commit s).writeBack c n st (some o.d) 0
    | some e =>
      if !bitAt (v0 v) 8 then (commit s).writeBack c n st (some o.d) (e.words.getD 0 0)
      else if e.req then s.block c n st .msg
      else match s.lnCore (s.partOf c) e.ln with
        | none => ((commit s).setCredit c i { e.drop with credits := 0 }).writeBack c n st (some o.d) (wd e.credits)
        | some d =>
          ((commit (s.setCredit c i { e with credits := 0 })).putStrand c n
            { st with run := .await .msg (waitFor (.rcred o.d i)), deadline := none }).send c d false (s.tagOf c st.lslot)
            (.creditReturn (some ⟨c, n, st.uid⟩) e.ring e.asid i e.credits)))

/-! ### Deques -/

/-- RPOPT (09 R291). -/
def execRpopt (o : OpDA) (s : State) : Out :=
  .next (s.ringOp o.g [o.a] (some o.d) (fun c n st v commit r s =>
    if !r.isDeque || r.avail = 0 || r.claim != r.pub then (commit s).complete c n (st.setP3 false)
    else
      let p := (r.pub + 65535) % 65536
      ((commit s).setRing c (fld (v0 v) 3 0) { r with pub := p, claim := p }).writeBack c n (st.setP3 true) (some o.d)
        (wd (r.addr p))))

/-- RSTEAL (09 R291): g[d] is the scratchpad offset that receives the entry. -/
def execRsteal (o : OpDA) (s : State) : Out :=
  .next (s.issue o.g none [o.a, o.d] [o.a, o.d] none (fun c n st v commit s =>
    if (v1 v).toNat % 16 != 0 then s.takeFault c n st (fAlign (v1 v) 16)
    else match s.lnCore (s.partOf c) (twLn (v0 v)) with
      | none => (commit s).complete c n (st.setP3 false)
      | some d =>
        ((commit s).putStrand c n { st with run := .await .msg (waitFor (.rsteal o.d (v1 v).toNat)) }).send c d false
          (s.tagOf c st.lslot) (.steal ⟨c, n, st.uid⟩ (twRing (v0 v)) st.asid)))

/-! ### Register-mapped queues -/

/-- A ring QBIND cannot bind in a direction (09 R293). -/
def State.bindRefused (s : State) (c : CoreId) (st : Strand) (i : Nat) (bound : Ring → Bool) : Bool :=
  match s.ring c i with
  | none => true
  | some r => r.asid != st.asid || r.isDeque || r.taskref != 0 || bound r
/-- A ring takes a direction. -/
def State.bindRing (s : State) (c : CoreId) (i : Nat) (f : Ring → Ring) : State :=
  match s.ring c i with
  | none => s
  | some r => s.setRing c i (f r)

/-- QBIND (09 R293). -/
def execQbind (o : OpA) (s : State) : Out :=
  .next (s.issue o.g none [o.a] [o.a] none (fun c n st v commit s =>
    let q : QBind := { inRing := fld (v0 v) 3 0, outRing := fld (v0 v) 7 4, inEn := bitAt (v0 v) 8, outEn := bitAt (v0 v) 9 }
    if st.stat.qbound || (q.inEn && s.bindRefused c st q.inRing (fun r => r.qin)) ||
        (q.outEn && s.bindRefused c st q.outRing (fun r => r.qout)) then (commit s).complete c n (st.setP3 false)
    else
      let s := if q.inEn then s.bindRing c q.inRing (fun r => { r with qin := true, cword := 0 }) else s
      let s := if q.outEn then s.bindRing c q.outRing (fun r => { r with qout := true, pword := 0 }) else s
      let st' : Strand := { st with qb := some q, stat := { st.stat with qbound := true } }
      s.complete c n (st'.setP3 true)))

/-- QFREE (09 R293). -/
def execQfree (o : Op0) (s : State) : Out :=
  .next (s.issue o.g none [] [] none (fun c n st _ _ s =>
    let s := if st.stat.qbound then s.drainQueue c st else s
    if st.stat.qbound && !s.quiet c st false then s.block c n st .mem
    else (s.queueFree c n st).2.complete c n (s.queueFree c n st).1))

/-! ### Byte-count barriers (09 R304) -/

def execBcset (o : OpAB) (s : State) : Out :=
  .next (s.issue o.g none [o.a, o.b] [o.a, o.b] none (fun c n st v commit s =>
    ((commit s).modCore c (fun k =>
      { k with bcbs := tblSet k.bcbs (fld (v0 v) 3 0) { count := fld (v1 v) 31 0, asid := st.asid } })).complete c n st))

/-- BCWAIT: d holds the limit. -/
def execBcwait (o : OpDAB) (s : State) : Out :=
  .next (s.issue o.g none [o.a, o.b, o.d] [o.a, o.b, o.d] none (fun c n st v commit s =>
    let i := fld (v0 v) 3 0
    let b := tblGet { count := 0, asid := 0 } (s.core c).bcbs i
    s.waitHere c n st (v2 v) (b.count ≥ fld (v1 v) 31 0 && b.asid = st.asid)
      #v[wd i, wd (fld (v1 v) 31 0), wd b.count, expiryInfo 3 4 2 0] commit))

end Sys2Proof.Machine
end

