-- ==== Sys2Proof/Machine/Supervisor.lean ====
section
/-! DEFINITION. Supervisor members: TRAPRET and REINJ, privileged registers, contexts, invalidation and walks, mirrors, RETIRE
(06 R194, R198 to R200; 08 R251, R252; 10 R333, R334, R351; 11 R363 to R372; 12 R381, R382, R391; 16 R453). -/
namespace Sys2Proof.Machine
open Sys2Proof

/-! ### TRAPRET and REINJ (06 R198 to R200) -/

/-- TRAPRET (06 R200). -/
def execTrapret (o : Op0) (s : State) : Out :=
  .next (s.issue o.g (some (memberInfo 5 3 0)) [] [] none (fun c n st _ _ s =>
    match st.handlerOf with
    | none => s.takeFault c n st (fIllegal 0x0F st.pc (chainInfo st.chain))
    | some f =>
      if (s.core c).vectorOpen st.uid then s.block c n st .mem
      else s.released c n st true (fun s => (s.freeUnits c n st).trapReturn c f)))

/-- FrameAt (06 R199): the number of a frame of HERE by its local offset. -/
def frameIndex (a : Word) : Option Nat :=
  let off := a.toNat
  if frameOff 0 ≤ off && off < frameOff 32 && off % 1024 = 0 then some ((off - frameOff 0) / 1024) else none
/-- A REINJ on frame m waits for its reply. -/
def Core.reinjOpen (k : Core) (m : Nat) : Bool :=
  k.slots.any (fun x => match x.2.run with
    | .await _ r => (match r.cont with | .reinj f _ => f = m | _ => false)
    | _ => false)

/-- REINJ (06 R199): the entry is sent to its home, and the reply ends the instruction; one REINJ on a frame at a time. -/
def execReinj (o : OpAB) (s : State) : Out :=
  .next (s.issue o.g (some (memberInfo 5 3 1)) [o.a, o.b] [o.a, o.b] none (fun c n st v commit s =>
    match frameIndex (v0 v) with
    | none => s.takeFault c n st (fAccess (v0 v) 0)
    | some m =>
      if (s.core c).reinjOpen m then s.block c n st .mem
      else match (s.core c).replayStrand m with
        | none => s.takeFault c n st (fAccess (v0 v) 0)
        | some f =>
          let i := fld (v1 v) 2 0
          match f.rq[i]? with
          | none => (commit s).complete c n (st.setP3 false)
          | some e =>
            if e.state != 0 then (commit s).complete c n (st.setP3 true)
            else if bitAt (v1 v) 8 then
              ((commit s).modCore c (fun k => k.mapReplay m (fun x => x.setReplay i { e with state := 2 }))).complete c n (st.setP3 true)
            else if (f.rq.take i).any (fun x => x.state = 0) then (commit s).complete c n (st.setP3 false)
            else (commit s).sendReplay c n st f e (.reinj m i) (fun s why => s.reinjDone c n st m i why)))

/-! ### MFSP and MTSP (02 R75) -/

/-- LOGSTATn (15 R440). -/
def State.logStat (s : State) (p n : Nat) : Word :=
  match s.part p with
  | none => 0
  | some x =>
    let last := tblGet 0 x.logLast n
    match List.lookup n x.logs with
    | none => wd last
    | some l =>
      let oldest := match l.seams with | [] => 0 | a :: _ => a.n
      wd (l.cur * 2 ^ 40 + oldest * 65536 + b01 l.frozen * 2 ^ 15 + b01 l.lost * 2 ^ 14 + b01 (l.seams.any (·.frayed)) * 2 ^ 13 + last)

/-- VCTX (08 R252). -/
def Core.vctxWord (k : Core) : Word := wd (maskOf (k.vctx.map (·.1)))

/-- The privileged register numbered n, as MFSP reads it (02 R75). -/
def State.privRead (s : State) (c : CoreId) (st : Strand) (n : Nat) : Word :=
  let k := s.core c
  let p := s.partOf c
  if n = 0x40 then (s.handlerPair c st).1
  else if n = 0x41 then (s.handlerPair c st).2
  else if n = 0x48 then k.vshare
  else if n = 0x49 then k.vctxWord
  else if n = 0x51 then (match s.part p with | none => 0 | some x => wd (x.discards * 2 ^ 32 + x.refusals))
  else if n = 0x58 then k.cfg.mirtab
  else if n = 0x60 then k.cfg.lmap
  else if n = 0x61 then k.cfg.wheelcfg
  else if n = 0x62 then k.cfg.wslots
  else if n = 0x68 then k.cfg.partcfg
  else if 0x70 ≤ n && n < 0x78 then k.cfg.iset.toList.getD (n - 0x70) 0
  else if 0x7A ≤ n && n < 0x7E then s.logStat p (n - 0x7A)
  else if n = 0x7E then k.cfg.dumpctl
  else if n = 0x7F then k.cfg.dumpva
  else if n = 0x80 then k.cfg.fabcfg
  else if n = 0x81 then k.cfg.fabexp
  else if n = 0x82 then k.cfg.fabslots
  else 0

/-- MFSP (02 R75). -/
def execMfsp (o : OpDN) (s : State) : Out :=
  .next (s.issue o.g (some (memberInfo 5 0 0)) [] [] (some o.d) (fun c n st _ commit s =>
    (commit s).writeBack c n st (some o.d) (s.privRead c st o.n)))

def State.modCfg (s : State) (c : CoreId) (f : CoreCfg → CoreCfg) : State := s.modCore c (fun k => { k with cfg := f k.cfg })

/-- MTSP's effect on a register without behaviour of its own; a read-only one is unchanged (02 R75; 06 R194; 11 R365; 15 R451). -/
def State.privWrite (s : State) (c : CoreId) (st : Strand) (n : Nat) (v : Word) : State :=
  if n = 0x40 then s.modCore c (fun k =>
    { k with hpairs := tblSet k.hpairs (pairKey st) (setBit v 0 false, (tblGet (0, 0) k.hpairs (pairKey st)).2) })
  else if n = 0x41 then s.modCore c (fun k =>
    { k with hpairs := tblSet k.hpairs (pairKey st) ((tblGet (0, 0) k.hpairs (pairKey st)).1, v) })
  else if n = 0x58 then s.modCfg c (fun g => { g with mirtab := ctlTake 0 v (2 ^ 52 - 2 ^ 7 + 1) })
  else if n = 0x7E then s.modCfg c (fun g => { g with dumpctl := ctlTake 0 v (2 ^ 63 + 65535) })
  else if n = 0x7F then s.modCfg c (fun g => { g with dumpva := v })
  else s

/-- A member of MTSP: the general register is an ordinary source. -/
def State.mtspOp (s : State) (g : Guard) (d : Reg) (k : Body') : State := s.issue g (some (memberInfo 5 1 0)) [d] [d] none k

/-- MTSP. -/
def execMtsp (o : OpDN) (s : State) : Out :=
  .next (s.mtspOp o.g o.d (fun c n st v commit s => ((commit s).privWrite c st o.n (v0 v)).complete c n st))

/-- MTSP to VSHARE (08 R251, R252): the share counts start again. -/
def execVshareWrite (o : OpD) (s : State) : Out :=
  .next (s.mtspOp o.g o.d (fun c n st v commit s =>
    ((commit s).modCore c (fun k => { k with vshare := wd (fld (v0 v) 7 0), vcount := Vector.replicate 2 0 })).complete c n st))

/-! ### Contexts (10 R333, R351) -/

/-- A 64-byte descriptor that an MTSP names (log 33). -/
def State.mtspDesc (s : State) (c : CoreId) (n : Nat) (st : Strand) (va : Word) (k : List Byte → State → State) : State :=
  if va.toNat % 64 != 0 then s.takeFault c n st (fAlign va 64)
  else match s.readVa c n st va 64 (memberInfo 5 1 0) with
    | .wait s => s
    | .fault f s => s.takeFault c n st f
    | .ok b s => k b s

def contextOf (b : List Byte) : Context :=
  let w := dwAt b 0
  { asid := fld w 15 0, preempt := fld w 55 48, home := fld w 47 32, age := fld (dwAt b 8) 47 0, root := dwAt b 16,
    hentry := dwAt b 24, harg := dwAt b 32, save := dwAt b 40, savecnt := fld (dwAt b 48) 31 0 }
/-- The refusals of R333. -/
def State.dctlRefused (s : State) (p : Nat) (b : List Byte) : Bool :=
  let w := dwAt b 0
  fld w 62 56 != 0 || fld w 31 16 != 0 || fld (dwAt b 8) 63 48 != 0 || fld (dwAt b 48) 63 32 != 0 || dwAt b 56 != 0 ||
  fld w 47 32 ≥ s.liveCount p || (!bitAt w 63 && (s.context p (fld w 15 0)).isNone)

/-- Board entries of launches that hold no slot read CANCELLED, and DISCARDS grows (10 R342, R351). -/
def State.discard (s : State) (p : Nat) : List Launch → State
  | [] => s
  | l :: t =>
    let s := match s.lnCore p l.home with
      | none => s
      | some h => s.boardEndOf h l.bslot l.seq .cancelled l.endedGangs l.boardInfo
    (s.modPart p (fun x => { x with discards := min (x.discards + 1) (2 ^ 32 - 1),
                                    launches := x.launches.filter (fun y => y.order != l.order) })).discard p t

/-- A teardown begins: queued launches are discarded, running ones stop without a record (10 R351). -/
def State.tearDown (s : State) (p asid : Nat) : State :=
  match s.part p with
  | none => s
  | some x =>
    let mine := x.launches.filter (fun l => l.asid = asid)
    ((s.discard p (mine.filter Launch.holdsQueue)).modPart p (fun x =>
      { x with tearing := setAdd x.tearing asid, dumpQueue := x.dumpQueue.filter (fun i => mine.all (fun l => l.order != i)),
               launches := x.launches.map (fun l =>
                 if l.asid = asid then { l.stopAll with torn := true, dumping := false, startSeam := false } else l) })).endTear p asid

/-- MTSP to DCTL (10 R333, R351). Once a teardown has begun the strand waits for its end. -/
def State.dctl (s : State) (g : Guard) (d : Reg) : State :=
  s.mtspOp g d (fun c n st v commit s =>
    s.mtspDesc c n st (v0 v) (fun b s =>
      let p := s.partOf c
      let k := contextOf b
      let tearing : Bool := match s.part p with | none => false | some x => x.tearing.contains k.asid
      if st.bulk.isSome then
        if tearing then s.block c n st .msg else (commit s).complete c n (st.setP3 true)
      else if s.dctlRefused p b then (commit s).complete c n (st.setP3 false)
      else if bitAt (dwAt b 0) 63 then
        if tearing then s.block c n st .msg
        else
          ((commit s).modPart p (fun x => { x with contexts := x.contexts.filter (fun y => y.asid != k.asid) ++ [k] })).complete c n
            (st.setP3 true)
      else
        let st : Strand := { st with bulk := some { img := [], len := 0, pos := 0 } }
        let s := (s.putStrand c n st).tearDown p k.asid
        if (match s.part p with | none => false | some x => x.tearing.contains k.asid) then s.block c n st .msg
        else (commit s).complete c n (st.setP3 true)))
/-- DCTL with VALID = 1 in the descriptor; the descriptor decides (log 6). -/
def execDctlInstall (o : OpD) (s : State) : Out := .next (s.dctl o.g o.d)
/-- DCTL with VALID = 0 in the descriptor; the descriptor decides (log 6). -/
def execDctlTeardown (o : OpD) (s : State) : Out := .next (s.dctl o.g o.d)

/-! ### Invalidation (11 R369 to R372) -/

/-- INVR, INVA, ICINV: release, post, wait for the sweep. -/
def State.postInv (s : State) (c : CoreId) (n : Nat) (st : Strand) (kind : Nat) (all : Bool) (vmid asid base len : Nat)
    (commit : State → State) : State :=
  let s := s.drainQueue c st
  if !s.quiet c st false then s.block c n st .mem
  else if (len = 0 && kind != 1) || (s.part (s.partOf c)).isNone then (commit s).complete c n st
  else
    let q : InvOp := { kind := kind, ref := some ⟨c, n, st.uid⟩, all := all, vmid := vmid, asid := asid, base := base, len := len,
                       tsc := s.now c, ln := (s.core c).cfg.ln, delivered := none, clear := [] }
    ((commit s).modPart (s.partOf c) (fun x => { x with invq := x.invq ++ [q] })).putStrand c n
      { st with run := .await .msg (waitFor .inval) }

def execInvr (o : OpDAB) (s : State) : Out :=
  .next (s.issue o.g (some (memberInfo 5 2 0)) [o.d, o.a, o.b] [o.d, o.a, o.b] none (fun c n st v commit s =>
    let m := v0 v
    s.postInv c n st 0 (bitAt m 63) (fld m 21 16) (fld m 15 0) (fld (v1 v) 55 0) (v2 v).toNat commit))
def execInva (o : OpA) (s : State) : Out :=
  .next (s.issue o.g (some (memberInfo 5 2 1)) [o.a] [o.a] none (fun c n st v commit s =>
    let m := v0 v
    s.postInv c n st 1 (bitAt m 63) (fld m 21 16) (fld m 15 0) 0 0 commit))
def execIcinv (o : OpAB) (s : State) : Out :=
  .next (s.issue o.g (some (memberInfo 5 2 2)) [o.a, o.b] [o.a, o.b] none (fun c n st v commit s =>
    s.postInv c n st 2 false (s.core c).vmid st.asid (fld (v0 v) 55 0) (v1 v).toNat commit))

def InvOp.before (a b : InvOp) : Bool := a.tsc < b.tsc || (a.tsc = b.tsc && a.ln ≤ b.ln)
/-- The operation that the slot carries next. -/
def nextInv (l : List InvOp) : Option InvOp :=
  (l.filter (fun o => o.delivered.isNone)).foldl (fun b o => match b with
    | none => some o
    | some y => if y.before o then some y else some o) none

/-- A cached translation that an operation drops; ICINV drops none. -/
def InvOp.drops (o : InvOp) (t : Tlb) : Bool := o.kind != 2 && o.matches t.vmid t.asid (t.vpn * 2 ^ t.shift) (2 ^ t.shift)
def Core.dropTlb (k : Core) (f : Tlb → Bool) : Core :=
  { k with micTlb := k.micTlb.map (fun l => l.filter (fun t => !f t)), coreTlb := k.coreTlb.filter (fun t => !f t) }
/-- Every core of a partition, grooms included. -/
def State.ownCores (s : State) (p : Nat) : List CoreId :=
  ((s.cores.filter (fun e => e.2.owned && 16 * (coreOfKey e.1).w + e.2.partNo = p)).map (fun e => coreOfKey e.1))
/-- The clusters and cores of a partition drop translations (11 R370 step 1). -/
def State.dropTlbs (s : State) (p : Nat) (f : Tlb → Bool) : State :=
  let cs := s.ownCores p
  let cl := cs.map clusterOf
  overCores { s with clusters := s.clusters.map (fun e => if cl.contains e.1 then (e.1, e.2.filter (fun t => !f t)) else e) }
    (fun s c => s.modCore c (fun k => k.dropTlb f)) cs

/-- INVALIDATION_DELIVERY (11 R370): one operation in a wheel period. -/
def execInvalidationDelivery (o : EvPart) (s : State) : Out :=
  .next (match s.part o.p with
    | none => s
    | some x =>
      if x.invq.any (fun q => q.delivered = some x.period) then s
      else match nextInv x.invq with
        | none => s
        | some q =>
          let s := (s.setPart o.p { x with invq := x.invq.map (fun r => if r = q then { q with delivered := some x.period } else r) }).dropTlbs
            o.p q.drops
          { s with walks := s.walks.map (fun w =>
              if s.partOf w.core = o.p && q.kind != 2 && q.matches w.vmid w.asid (fld w.va 55 36 * 2 ^ 36) (2 ^ 36) then
                { w with marked := true } else w) })

/-- The strand that waits for an operation goes on. -/
def State.finishRef (s : State) (r : Option Ref) : State :=
  match r with
  | none => s
  | some r =>
    match s.strandOf r with
    | none => s
    | some st => s.complete r.core r.slot st

/-- INVALIDATION_SWEEP (11 R370): a sweep of a later period finds every cluster clear. -/
def execInvalidationSweep (o : EvPart) (s : State) : Out :=
  .next (match s.part o.p with
    | none => s
    | some x =>
      let x : Partition := { x with invq := x.invq.map (fun q => if q.delivered.isSome then s.latchAll o.p q else q) }
      let s := s.setPart o.p x
      match x.invq.find? (fun q => match q.delivered with | none => false | some t => t < x.period && s.allClear o.p q) with
      | none => s
      | some q => (s.setPart o.p { x with invq := x.invq.filter (fun r => r != q) }).finishRef q.ref)

/-! ### Walks (11 R363, R364) -/

/-- The next queued walk of a cluster starts. -/
def startQueued (cl : Nat) : List Walk → List Walk
  | [] => []
  | w :: t => if w.cluster = cl && w.queued then { w with queued := false } :: t else w :: startQueued cl t

/-- WALK_COMPLETE (11 R363, R370): a marked walk is made again; a leaf fills the caches; a failure waits for its access, and a
prefetch walk that fails leaves nothing. -/
def execWalkComplete (o : EvIdx) (s : State) : Out :=
  .next (match s.walks[o.i]? with
    | none => s
    | some w =>
      if w.queued || w.retry.isSome then s
      else if w.marked then { s with walks := setAt s.walks o.i { w with marked := false } }
      else
        let s : State := { s with walks := startQueued w.cluster (dropAt s.walks o.i) }
        let failed : Nat → Word → Option Nat → State → State := fun level e bad s =>
          match w.uid with
          | none => s
          | some u => { s with walkFails := s.walkFails ++ [{ uid := u, va := w.va, level := level, entry := e, bad := bad }] }
        match s.walk w.core w.asid w.va with
        | .bad pa s => failed 0 0 (some pa) s
        | .fail level e s => failed level e none s
        | .leaf e shift iset s =>
          let ms := if lfMirror e then s.mirrorEntry w.core (lfMidx e) else none
          let t : Tlb := { vmid := w.vmid, asid := w.asid, shift := shift, vpn := fld w.va 55 0 / 2 ^ shift, leaf := e, iset := iset,
                           mirrors := ms }
          ((s.fillCluster w.core t).fillCore w.core t).fillMicro w.core w.barrel t)

/-- WALK_RETRY_TIMER (11 R363): a core that found the queue full asks again after 64 core cycles. -/
def execWalkRetryTimer (o : EvIdx) (s : State) : Out :=
  .next (match s.walks[o.i]? with
    | none => s
    | some w =>
      match w.retry with
      | none => s
      | some t =>
        if s.cycle < t then s
        else
          let mine := s.walks.filter (fun x => x.cluster = w.cluster && x.retry.isNone)
          let busy := (mine.filter (fun x => !x.queued)).length
          let q := (mine.filter (fun x => x.queued)).length
          let w' : Walk := if busy < 32 then { w with retry := none, queued := false }
            else if q < 64 then { w with retry := none, queued := true } else { w with retry := some (s.cycle + 64) }
          { s with walks := setAt s.walks o.i w' })

/-! ### Mirrors (11 R365 to R368) -/

/-- A mirror update is still on its way in a partition. -/
def State.updatesOpen (s : State) (p : Nat) : Bool :=
  s.net.any (fun m => match m.body with
    | .mirrorUpdate _ _ _ _ => s.partOf m.dst = p
    | _ => false)
/-- The open merge groups of a stretch of memory close. -/
def State.closeRange (s : State) (pa n : Nat) : State :=
  let h := homeOf pa
  (((s.core h).merges.filter (fun g => pa ≤ 64 * g.line && 64 * g.line < pa + n)).map (·.line)).foldl (fun s l => s.closeLine h l) s
/-- n bytes are copied from the home to a mirror as acknowledged writes; an uncorrectable granule stays one. -/
def State.copyMirror (s : State) (src dst n : Nat) : State :=
  let s := s.closeRange dst n
  let s : State := { s with mem := memCopy s.mem src dst n,
                            ecc := (s.ecc.filter (fun g => 16 * g ≥ src && 16 * g < src + n)).foldl
                              (fun l g => setAdd l (g - src / 16 + dst / 16)) (s.ecc.filter (fun g => !(wholeGranules dst n).contains g)) }
  s.wake (homeOf dst) [(dst, n)]
/-- The mirrors of a page take [pa, pa + n) from the home, with the home's sequence (13 R399). -/
def State.syncMirrors (s : State) (p midx home pa n : Nat) : List (Nat × Nat) → State
  | [] => s
  | (ln, off) :: t =>
    let s := match s.lnCore p ln with
      | none => s
      | some d => (s.copyMirror pa (coreBase d + off + (pa - home)) n).setMirrorSeq p (mirKeyCopy midx ln)
          (s.mirrorSeqOf p (mirKeyHome midx))
    s.syncMirrors p midx home pa n t

def pairwiseDistinct : List Nat → Bool
  | [] => true
  | a :: t => !t.contains a && pairwiseDistinct t
/-- The mirrors of a mirror record: LN and OFF (11 R365, R367). -/
def recordMirrors (b : List Byte) (n : Nat) : List (Nat × Nat) :=
  (span 0 n).map (fun i => let m := dwAt b (8 + 8 * i); (fld m 63 48, fld m 29 0))
/-- The record is acceptable for a page (11 R367). -/
def State.mirrorsFit (s : State) (p home page : Nat) (ms : List (Nat × Nat)) : Bool :=
  ms.all (fun m => m.1 < s.liveCount p && s.lnCore p m.1 != some (homeOf home) && m.2 % page = 0 && inDram m.2) &&
  pairwiseDistinct (ms.map (·.1))
/-- The bytes of a mirror-table entry (11 R365). -/
def mirrorBytes (home page : Nat) (ms : List (Nat × Nat)) : List Byte :=
  ((wd (ms.length * 2 ^ 60 + (if page = 2 ^ 16 then 1 else 2) * 2 ^ 58 + home) :: ms.map (fun m => wd (m.1 * 2 ^ 48 + m.2))).map
    (fun w => leBytes 8 w.toNat)).flatten

/-- The page that holds a VA, as the caches give it after Xlate: its leaf, its shift and the PA of its first byte. -/
def State.pageAt (s : State) (x : XCtx) (va : Word) : Option (Word × Nat × Nat) :=
  match s.lookup x (s.core x.core).vmid va with
  | none => none
  | some (t, _) =>
    match s.leafPa x.core t.shift t.leaf t.iset va with
    | none => none
    | some pa => some (t.leaf, t.shift, pa - pa % 2 ^ t.shift)

/-- MIRSET (11 R367). A partition without a mirror table has no entry to write (log 34). -/
def execMirset (o : OpAB) (s : State) : Out :=
  .next (s.issue o.g (some (memberInfo 5 6 0)) [o.a, o.b] [o.a, o.b] none (fun c n st v commit s =>
    let s := s.drainQueue c st
    if !s.quiet c st false then s.block c n st .mem
    else
      let x := placeCtx c st
      match s.xlate x (v0 v) kWrite with
      | .wait s => s.block c n st .mem
      | .fault f s => s.takeFault c n st f
      | .ok _ _ s =>
        if (v1 v).toNat % 64 != 0 then s.takeFault c n st (fAlign (v1 v) 64)
        else match s.readVa c n st (v1 v) 128 (memberInfo 5 6 0) with
          | .wait s => s
          | .fault f s => s.takeFault c n st f
          | .ok b s =>
            let p := s.partOf c
            let midx := fld (dwAt b 0) 7 0
            let ms := recordMirrors b (fld (dwAt b 0) 11 8)
            let t := (s.core c).cfg.mirtab
            match s.pageAt x (v0 v) with
            | none => s.block c n st .mem
            | some (leaf, shift, home) =>
              if !(lfMirror leaf && lfMidx leaf = midx && (shift = 16 || shift = 26) && s.mirrorsFit p home (2 ^ shift) ms && bitAt t 0) then
                (commit s).complete c n (st.setP3 false)
              else if s.updatesOpen p then s.block c n st .msg
              else
                let s := ((commit s).closeRange home (2 ^ shift)).syncMirrors p midx home home (2 ^ shift) ms
                let w : Writer := { asid := st.asid, log := false, leaf := 0, kind := 3, strand := false, ref := none }
                (s.writePa (fld t 51 7 * 128 + 128 * midx) (mirrorBytes home (2 ^ shift) ms) w).complete c n (st.setP3 true)))

/-- What MIRSYNC does page by page: whether every page was mirrored, or the wait or fault of a translation. -/
inductive SyncRes where
  | ok (all : Bool) (s : State)
  | wait (s : State)
  | fault (f : FaultInfo) (s : State)
def State.mirsyncPages : Nat → State → XCtx → Word → Nat → SyncRes
  | 0, s, _, _, _ => .ok true s
  | f + 1, s, x, va, len =>
    if len = 0 then .ok true s
    else match s.xlate x va kWrite with
      | .wait s => .wait s
      | .fault e s => .fault e s
      | .ok pa leaf s =>
        match s.pageAt x va with
        | none => .wait s
        | some (_, shift, home) =>
          let n := min len (2 ^ shift - va.toNat % 2 ^ shift)
          let r : Bool × State :=
            if !lfMirror leaf || shift = 36 then (false, s)
            else match s.mirrorEntry x.core (lfMidx leaf) with
              | none => (false, s)
              | some (h, _, ms) =>
                if h != home || ms.isEmpty then (false, s)
                else (true, (s.closeRange home (2 ^ shift)).syncMirrors (s.partOf x.core) (lfMidx leaf) home pa n ms)
          match State.mirsyncPages f r.2 x (va + wd n) (len - n) with
          | .ok all s => .ok (all && r.1) s
          | y => y

/-- MIRSYNC (11 R368). -/
def execMirsync (o : OpAB) (s : State) : Out :=
  .next (s.issue o.g (some (memberInfo 5 6 1)) [o.a, o.b] [o.a, o.b] none (fun c n st v commit s =>
    let len := (v1 v).toNat
    if len = 0 then (commit s).complete c n st
    else if !(s.drainQueue c st).quiet c st false then (s.drainQueue c st).block c n st .mem
    else let s := s.drainQueue c st; if s.updatesOpen (s.partOf c) then s.block c n st .msg
    else match State.mirsyncPages (len / 65536 + 2) s (placeCtx c st) (v0 v) len with
      | .wait s => s.block c n st .mem
      | .fault f s => s.takeFault c n st f
      | .ok all s => (commit s).complete c n (st.setP3 all)))

/-! ### The published live map (12 R381, R382) -/

def mapWord (k : Core) (c : CoreId) (retired : Bool) : Nat := b01 retired * 2 ^ 31 + k.cfg.mask * 2 ^ 24 + c.x * 256 + c.y
/-- Firmware's stores. -/
def firmware : Writer := { asid := 0, log := false, leaf := 0, kind := 3, strand := false, ref := none }
def State.mapEntry (s : State) (c : CoreId) : List Byte := leBytes 4 (mapWord (s.core c) c (s.core c).cfg.fwdValid)
/-- The map that boot makes of the first partition. No strand runs meanwhile, so the stores are made in one step, and GEN is even again when
one reads it. -/
def State.publishMap (s : State) (p : Nat) (live : List CoreId) : State :=
  match s.part p with
  | none => s
  | some x =>
    match live with
    | [] => s
    | h :: _ =>
      let base := fld (s.core h).cfg.lmap 51 6 * 64
      let s := s.setPart p { x with gen := x.gen + 2 }
      (s.writePa base (leBytes 8 (x.gen + 2) ++ leBytes 8 live.length) firmware).writePa (base + 0x40)
        (live.map s.mapEntry).flatten firmware
/-- A change of a map in use begins: at its place, or where its core is lost at the new first core's (12 R381, R382). -/
def State.beginMap (s : State) (p : Nat) (live : List CoreId) (held : Option Bool) : State :=
  s.modPart p (fun x =>
    let base := match live with
      | [] => 0
      | h :: _ => if x.live.head? = some h then fld (s.core h).cfg.lmap 51 6 * 64 else mapBase live
    { x with newMap := some { live := live, base := base, pos := 0, sent := none, held := held } })

/-! ### RETIRE (12 R389, R391) -/

/-- A strand that a stop of its launch, a start that is still to come, or a frozen log slot keeps standing (10 R339, R340; 15 R439). -/
def State.keepStopped (s : State) (p : Nat) (st : Strand) : Bool :=
  (match s.part p with | none => false | some x => x.newMap.isSome && st.lslot.isSome) ||
  (match s.logSlotOf p st.asid with
    | none => false
    | some (_, g) => g.frozen && st.lslot.isSome) ||
  (match s.part p, st.lslot with
  | some x, some n =>
    (match x.slotLaunch n with
    | none => false
    | some l => l.stopping ||
        l.gangs.any (fun g => (!g.started || g.stopping) && (s.gangLns p l g).contains st.cln))
  | _, _ => false)
def Record.asStrand (r : Record) : Strand := { Strand.fresh with asid := r.asid, lslot := r.lslot, cln := r.cln }
/-- Stopped strands and records of a core go on, but for those that something else keeps standing. -/
def State.resumeOthers (s : State) (p : Nat) (f : Strand → Bool) (c : CoreId) : State :=
  s.resumeCore c (fun st => f st && !s.keepStopped p st) (fun r => f r.asStrand && !s.keepStopped p r.asStrand)

/-- The new map is in force, the cores know its place, and what stood still goes on (12 R382). -/
def State.endMap (s : State) (p : Nat) (j : MapJob) : State :=
  let s := s.adoptMap p j.live
  let s := overCores s (fun s c => s.modCfg c (fun k => { k with lmap := wd j.base })) (s.ownCores p)
  let s := match j.held with
    | none => s
    | some b => s.modPart p (fun x => { x with held := b })
  overCores s (fun s c => s.resumeOthers p (fun _ => true) c) (s.ownCores p)
/-- MAP_BROADCAST (12 R382): the next step of a change of the map. GEN becomes odd, the entries and COUNT are stored one by one, the
new map is broadcast, GEN becomes even; each core uses the new copy from the period after the broadcast. -/
def execMapBroadcast (o : EvPart) (s : State) : Out :=
  .next (match s.part o.p with
    | none => s
    | some x =>
      match x.newMap with
      | none => s
      | some j =>
        let n := j.live.length
        let on : Partition := { x with newMap := some { j with pos := j.pos + 1 } }
        let store : Partition → Nat → List Byte → State := fun y off b => (s.setPart o.p y).writePa (j.base + off) b firmware
        if j.pos = 0 then store { on with gen := x.gen + 1 } 0 (leBytes 8 (x.gen + 1))
        else if j.pos ≤ n then
          (match j.live[j.pos - 1]? with
          | none => s
          | some c => store on (0x3C + 4 * j.pos) (s.mapEntry c))
        else if j.pos = n + 1 then store on 8 (leBytes 8 n)
        else if j.pos = n + 2 then s.setPart o.p { x with newMap := some { j with pos := j.pos + 1, sent := some x.period } }
        else if j.pos = n + 3 then store { on with gen := x.gen + 1 } 0 (leBytes 8 (x.gen + 1))
        else if x.period ≤ j.sent.getD 0 then s
        else s.endMap o.p j)

/-- Strands of a core in any place that moves. -/
def Core.movers (k : Core) : List Strand := k.slots.map (·.2) ++ (k.cloak ++ k.spill ++ k.rescue.toList).map (·.st)
/-- The refusals of R391. -/
def State.retireRefused (s : State) (p a b : Nat) : Bool :=
  match s.lnCore p a, s.lnCore p b with
  | some c, some h =>
    let k := s.core c
    let y := s.core h
    a = b || k.cfg.fwdValid || y.cfg.fwdValid || !k.records.isEmpty || k.rings.any (fun r => r.2.inUse) || !k.frozen.isEmpty ||
    k.movers.length > (y.freeIn 0).length + (y.freeIn 1).length + (y.cloakDepth - y.cloakUsed) + (y.spillLimit - y.spillUsed) ||
    k.crews.any (fun x => (List.lookup x.1 y.crews).isSome) ||
    (k.movers.any (fun st => st.vctx.isSome) && (!y.has 1 || 8 - y.vctx.length < (k.movers.filter (fun st => st.vctx.isSome)).length))
  | _, _ => true

/-- The strands that RETIRE stops: all of the retiring core, and those of every launch, since the map changes only while every launch of
the partition is quiesced (12 R382, R391 step 1). -/
def retireStops (src : CoreId) (exec : Nat) (c : CoreId) (st : Strand) : Bool := st.uid != exec && (c = src || st.lslot.isSome)
def retireHolds (src : CoreId) (c : CoreId) (r : Record) : Bool := c = src || r.lslot.isSome
/-- Nothing of the core is on its way, and the launches stand still (12 R391 step 1). -/
def State.retireStill (s : State) (p : Nat) (c : CoreId) (exec : Nat) : Bool :=
  (s.core c).admitting.isEmpty &&
  (s.ownCores p).all (fun d => (s.core d).allStopped (retireStops c exec d) (retireHolds c d)) &&
  s.net.all (fun m => match m.body with
    | .gangArrive _ _ _ _ _ => m.dst != c
    | .crewArrive _ _ _ => m.dst != c
    | .crewDone _ _ _ _ _ => m.src != c
    | .coat x => !(s.partOf m.dst = p && x.st.lslot.isSome)
    | .bounced x => !(s.partOf m.dst = p && x.st.lslot.isSome)
    | _ => true)

/-- Granule numbers of one core's slice and scratchpad, carried to another core. -/
def moveGranules (l : List Nat) (src dst : Nat) : List Nat :=
  let inCore : Nat → Nat → Bool := fun base g => base / 16 ≤ g && g < (base + 0x20100000) / 16
  (l.filter (inCore src)).foldl (fun acc g => setAdd acc (g - src / 16 + dst / 16)) (l.filter (fun g => !inCore dst g))

/-- A strand leaves the retiring core of LN `a` as a coat whose journey starts with FWD and BOUNCE at 0; the forward to the heir counts. A
bound strand keeps its PIX (07 R217, R218, R229; 12 R391 step 3). -/
def moveStrand (keep : Bool) (a : Nat) (st : Strand) : Strand :=
  let y := st.coat
  let y : Strand := { y with fwd := 1, pix := if st.vctx.isSome then st.pix else none, pixPc := st.pixPc, run := st.run,
                             det := { y.det with prev := a } }
  if keep then y else y.resume
/-- Its vector context goes with it. -/
def State.moveVector (s : State) (src dst : CoreId) (st : Strand) : Strand × State :=
  match st.vctx with
  | none => (st, s)
  | some i =>
    match List.lookup i (s.core src).vctx, (span 0 8).find? (fun j => (List.lookup j (s.core dst).vctx).isNone) with
    | some x, some j => ({ st with vctx := some j }, s.setVctx dst j x)
    | _, _ => (st, s)
def State.moveStrands (s : State) (p a : Nat) (src dst : CoreId) : List Coat → State
  | [] => s
  | x :: t =>
    let y := moveStrand (s.keepStopped p x.st) a x.st
    let v := s.moveVector src dst y
    let s := match (s.core dst).room with
      | none => v.2
      | some 32 => v.2.modCore dst (fun k => { k with cloak := k.cloak ++ [{ x with st := v.1, fwd := 1, bounce := 0, place := 32 }] })
      | some 33 => v.2.shedPut dst { x with st := v.1, fwd := 1, bounce := 0 }
      | some n => v.2.enterSlot dst n (match x.op, v.1.run with
          | some r, .ready => { v.1 with run := .arrived r }
          | _, _ => v.1)
    s.moveStrands p a src dst t

/-- The channels of a moved crew (12 R389, R391 step 4): in an open phase a posting stands, and without one the crew counts as removed
in this period; its members that had arrived receive the completion. All other channel state is dropped. -/
def State.shrinkChans (s : State) (p : Nat) (src dst : CoreId) (slot : Nat) : List Nat → State
  | [] => s
  | ch :: t =>
    let k := s.core src
    let y := k.chanOf slot ch
    let openPhase := match s.part p with
      | none => false
      | some x =>
        match x.slotLaunch slot with
        | none => false
        | some l => l.gangs.any (fun g => (l.gangCores p g).contains src && s.phaseOpen p slot l g ch)
    let now := match s.part p with | none => 0 | some x => x.period
    let y' : Channel := { Channel.fresh slot ch with arrived := y.arrived, phase := y.phase, vals := if y.posted.isSome then y.vals else [],
                                                     posted := some (y.posted.getD now), shrinking := y.posted.isNone || y.shrinking }
    let s := if openPhase then s.modCore dst (fun k => k.setChan y') else s
    s.shrinkChans p src dst slot t
def State.shrinkAll (s : State) (p : Nat) (src dst : CoreId) : List (Nat × Crew) → State
  | [] => s
  | (slot, _) :: t => (s.shrinkChans p src dst slot (span 11 21)).shrinkAll p src dst t
/-- Fabric phases that the removal completes (16 R459). -/
def State.fabricPosts (s : State) (p : Nat) (d : CoreId) : List Nat → State
  | [] => s
  | ch :: t => (if (s.core d).isFabric ch then s.fabricPost p ch d else s).fabricPosts p d t

/-- Requests parked at the retiring core wait at the heir. -/
def moveWaiter (src dst : CoreId) (w : Waiter) : Waiter :=
  { w with req := { w.req with pa := if homeOf w.req.pa = src then coreBase dst + offOf w.req.pa else w.req.pa } }

/-- Steps 2 to 5 of R391. -/
def State.retireCore (s : State) (p a b : Nat) (src dst : CoreId) : State :=
  let s := State.closeAll (s.core src).merges.length s src
  let s := State.closeAll (s.core dst).merges.length s dst
  let bs := coreBase src
  let bd := coreBase dst
  let s : State := { s with
    mem := memCopy (memCopy s.mem bs bd 0x20000000) (bs + 0x20000000) (bd + 0x20000000) 0x100000,
    feEmpty := moveGranules s.feEmpty bs bd, ecc := moveGranules s.ecc bs bd, soft := moveGranules s.soft bs bd }
  let s := s.shrinkAll p src dst (s.core src).crews
  let k := s.core src
  let coats := k.slots.map (fun x => { waitingCoat src x.2 with op := none }) ++ k.rescue.toList ++ k.cloak ++ k.spill
  let s := s.modCore dst (fun y =>
    { y with crews := k.crews.foldl (fun l x => tblSet l x.1 { x.2 with removed := true }) y.crews,
             hpairs := k.crews.foldl (fun l x => tblSet l x.1 (tblGet (0, 0) k.hpairs x.1)) y.hpairs,
             rings := k.rings, credits := k.credits, board := k.board, bcbs := k.bcbs, micro := k.micro,
             waiters := y.waiters ++ k.waiters.map (moveWaiter src dst) })
  let s := s.moveStrands p a src dst coats
  let s := s.modCore src (fun k =>
    { k with slots := [], cloak := [], spill := [], rescue := none, crews := [], chans := [], waiters := [], vctx := [],
             reserved := [], cfg := { k.cfg with fwdValid := true, heir := b } })
  let s := s.fabricPosts p dst (span 11 21)
  let s := s.modPart p (fun x => { x with retired := x.retired ++ [(a, b)] })
  s.beginMap p (s.coresOf p) none

/-- RETIRE (12 R391). The strand, moved or not, waits until the map is published (log 58). -/
def execRetire (o : OpAB) (s : State) : Out :=
  .next (s.issue o.g (some (memberInfo 5 6 2)) [o.a, o.b] [o.a, o.b] none (fun c n st v commit s =>
    let p := s.partOf c
    let a := fld (v0 v) 15 0
    let b := fld (v1 v) 15 0
    match st.bulk, s.lnCore p a, s.lnCore p b with
    | some _, _, _ =>
      if (match s.part p with | none => false | some x => x.newMap.isSome) then s.block c n st .msg
      else (commit s).complete c n (st.setP3 true)
    | none, some src, some dst =>
      let begun := (s.core src).reserved.contains 64
      if !begun && s.retireRefused p a b then (commit s).complete c n (st.setP3 false)
      else if !(s.drainQueue c st).quiet c st false then (s.drainQueue c st).block c n st .mem
      else let s := s.drainQueue c st
      if (match s.part p with | none => false | some x => x.newMap.isSome) then s.block c n st .msg
      else if !s.retireStill p src st.uid then
        let s := if begun then s else s.modCore src (fun k => { k with reserved := k.reserved ++ [64] })
        (overCores s (fun s d => s.stopCore d (retireStops src st.uid d) (retireHolds src d)) (s.ownCores p)).block c n st .msg
      else if s.retireRefused p a b then
        let s := s.modCore src (fun k => { k with reserved := k.reserved.filter (· != 64) })
        (commit (overCores s (fun s d => s.resumeOthers p (fun _ => true) d) (s.ownCores p))).complete c n (st.setP3 false)
      else (s.block c n { st with bulk := some { img := [], len := 0, pos := 0 } } .msg).retireCore p a b src dst
    | none, _, _ => (commit s).complete c n (st.setP3 false)))

end Sys2Proof.Machine
end

