-- ==== Sys2Proof/Machine/Topology.lean ====
section
/-! DEFINITION. The wafer's plan: fields, grooms, paddocks, live-core numbering, partition edges and the wheel period
(12 R376 to R380, R383; 14 R414). -/
namespace Sys2Proof.Machine
open Sys2Proof

/-! ### Fields and rectangles of fields -/

/-- A rectangle of whole fields of one wafer (14 R419). -/
structure Fields where
  w : Nat
  fx0 : Nat
  fy0 : Nat
  fwm1 : Nat
  fhm1 : Nat
  deriving DecidableEq, Repr

def Fields.has (f : Fields) (c : CoreId) : Bool :=
  c.w = f.w && 24 * f.fx0 ≤ c.x && c.x < 24 * (f.fx0 + f.fwm1 + 1) && 32 * f.fy0 ≤ c.y && c.y < 32 * (f.fy0 + f.fhm1 + 1)
def Fields.valid (f : Fields) : Bool := f.fx0 + f.fwm1 < 10 && f.fy0 + f.fhm1 < 8
def Fields.list (f : Fields) : List (Nat × Nat) :=
  ((span f.fy0 (f.fhm1 + 1)).map (fun y => (span f.fx0 (f.fwm1 + 1)).map (fun x => (x, y)))).flatten
def Partition.fields (x : Partition) (p : Nat) : Fields :=
  { w := waferOfPart p, fx0 := x.fx0, fy0 := x.fy0, fwm1 := x.fwm1, fhm1 := x.fhm1 }
/-- Every position of one side of the rectangle is inside another. -/
def Fields.inside (a b : Fields) : Bool := a.list.all (fun f => b.list.contains f)

/-- Groom candidates of a field, in the order of trial (12 R379). -/
def groomCandidates (w fx fy : Nat) : List CoreId :=
  [(11, 15), (12, 15), (11, 16), (12, 16)].map (fun q => { w := w, x := 24 * fx + q.1, y := 32 * fy + q.2 })

/-- Links that leave a partition, at the bits of EDGE (14 R414): N 3, E 2, S 1, W 0. -/
def Fields.edge (f : Fields) (c : CoreId) : Nat :=
  let out : Bool → CoreId → Bool := fun on d => on && !f.has d
  8 * b01 (out (c.y + 1 < 256) { c with y := c.y + 1 }) + 4 * b01 (out (c.x + 1 < 240) { c with x := c.x + 1 }) +
  2 * b01 (out (0 < c.y) { c with y := c.y - 1 }) + b01 (out (0 < c.x) { c with x := c.x - 1 })

/-! ### Paddocks (12 R377) -/

def Paddock.has (a : Paddock) (x y : Nat) : Bool := a.x0 ≤ x && x ≤ a.x1 && a.y0 ≤ y && y ≤ a.y1
/-- The ring's positions on the grid. -/
def Paddock.ring (a : Paddock) : List (Nat × Nat) :=
  let cols := span (a.x0 - 1) (a.x1 + 2 - (a.x0 - 1))
  let rows := span (a.y0 - 1) (a.y1 + 2 - (a.y0 - 1))
  ((cols.map (fun x => rows.map (fun y => (x, y)))).flatten).filter (fun q => !a.has q.1 q.2 && q.1 < 240 && q.2 < 256)
/-- Two paddocks grow together. -/
def Paddock.meets (a b : Paddock) : Bool :=
  a.w = b.w && (a.ring.any (fun q => b.ring.contains q || b.has q.1 q.2) || b.ring.any (fun q => a.has q.1 q.2))
def Paddock.join (a b : Paddock) : Paddock :=
  { w := a.w, x0 := min a.x0 b.x0, x1 := max a.x1 b.x1, y0 := min a.y0 b.y0, y1 := max a.y1 b.y1 }
/-- One merging of the list, if some pair meets. -/
def joinOne : List Paddock → Option (List Paddock)
  | [] => none
  | a :: t =>
    match t.find? a.meets with
    | some b => some (a.join b :: t.filter (fun x => x != b))
    | none => (joinOne t).map (fun l => a :: l)
def growPaddocks : Nat → List Paddock → List Paddock
  | 0, l => l
  | n + 1, l =>
    match joinOne l with
    | none => l
    | some m => growPaddocks n m
def paddockAt (w : Nat) (q : Nat × Nat) : Paddock := { w := w, x0 := q.1, x1 := q.1, y0 := q.2, y1 := q.2 }
def inPaddock (l : List Paddock) (c : CoreId) : Bool := l.any (fun a => a.w = c.w && a.has c.x c.y)

/-! ### Numbering (12 R380) -/

def hilbertGo : Nat → Nat → Nat → Nat → Nat
  | 0, _, _, d => d
  | k + 1, x, y, d =>
    let s := 2 ^ k
    let hx := x / s % 2
    let hy := y / s % 2
    let d := d + s * s * (3 * hx ^^^ hy)
    if hy = 0 then (if hx = 1 then hilbertGo k (255 - y) (255 - x) d else hilbertGo k y x d) else hilbertGo k x y d
/-- Hilbert(x, y). -/
def hilbert (x y : Nat) : Nat := hilbertGo 8 x y 0

def mergeKeyed : Nat → List (Nat × CoreId) → List (Nat × CoreId) → List (Nat × CoreId)
  | 0, _, b => b
  | _, [], b => b
  | _, a, [] => a
  | n + 1, x :: a, y :: b => if x.1 ≤ y.1 then x :: mergeKeyed n a (y :: b) else y :: mergeKeyed n (x :: a) b
def sortKeyed : Nat → List (Nat × CoreId) → List (Nat × CoreId)
  | 0, l => l
  | n + 1, l =>
    if l.length ≤ 1 then l
    else mergeKeyed (l.length + 1) (sortKeyed n (l.take (l.length / 2))) (sortKeyed n (l.drop (l.length / 2)))
/-- Cores in ascending order of Hilbert index. -/
def byHilbert (l : List CoreId) : List CoreId := (sortKeyed 17 (l.map (fun c => (hilbert c.x c.y, c)))).map (·.2)

/-- The live, numbered user cores of a rectangle of fields: no groom, and none of a field without one (12 R379, R380). -/
def State.userCores (s : State) (f : Fields) : List CoreId :=
  let mine := s.cores.filter (fun e => f.has (coreOfKey e.1))
  let led := (mine.filter (fun e => e.2.cfg.groom && e.2.live)).map (fun e => fieldNo (coreOfKey e.1))
  byHilbert ((mine.filter (fun e => e.2.live && !e.2.cfg.groom && led.contains (fieldNo (coreOfKey e.1)))).map (fun e => coreOfKey e.1))

/-! ### The wheel period (12 R383) -/

/-- Positions that a wheel wire crosses beyond the straight ones when a paddock stands on its way: out to the ring, and back
(12 R378, R383; log 36). -/
def wireDetour (l : List Paddock) (w : Nat) (alongX : Bool) (at' lo hi : Nat) : Nat :=
  (l.map (fun a =>
    let p0 := if alongX then a.y0 else a.x0
    let p1 := if alongX then a.y1 else a.x1
    let q0 := if alongX then a.x0 else a.y0
    let q1 := if alongX then a.x1 else a.y1
    let top := if alongX then 256 else 240
    if a.w = w && p0 ≤ at' && at' ≤ p1 && q0 ≤ hi && lo ≤ q1 then
      let low := at' ≤ (p0 + p1) / 2
      let low := if low then p0 != 0 else p1 + 1 ≥ top
      2 * (if low then at' + 1 - p0 else p1 + 1 - at')
    else 0)).sum
/-- The sum of R383 along a node's path to the root. -/
def wirePath (l : List Paddock) (w rx ry : Nat) : Nat → Nat → Nat → Nat
  | 0, _, _ => 0
  | n + 1, x, y =>
    if x != rx then
      let z := if x < rx then x + 1 else x - 1
      8 + wireDetour l w true (4 * y) (4 * min x z) (4 * max x z) + wirePath l w rx ry n z y
    else if y != ry then
      let z := if y < ry then y + 1 else y - 1
      8 + wireDetour l w false (4 * x) (4 * min y z) (4 * max y z) + wirePath l w rx ry n x z
    else 0
/-- The wheel period of a rectangle of fields, in net cycles. -/
def wheelPeriod (l : List Paddock) (f : Fields) : Nat :=
  let cols := span (6 * f.fx0) (6 * (f.fwm1 + 1))
  let rows := span (8 * f.fy0) (8 * (f.fhm1 + 1))
  let rx := (12 * f.fx0 + 6 * (f.fwm1 + 1) - 1) / 2
  let ry := (16 * f.fy0 + 8 * (f.fhm1 + 1) - 1) / 2
  let d := 2 * ((cols.map (fun x => rows.map (fun y => wirePath l f.w rx ry 128 x y))).flatten.foldl max 0)
  max 1024 (roundUp (d + 32) 64)

/-- The default slot kinds: 11 to 18 barrier, 19 to 31 reduction (12 R384). -/
def wslotsDefault : Word :=
  wd (((span 0 21).map (fun i => (if i < 8 then 1 else 2) * 4 ^ i)).sum)

end Sys2Proof.Machine
end

