-- ==== Sys2Proof/Machine/Partitions.lean ====
section
/-! DEFINITION. Partitions: QUIESCE, PARTSET, WSWITCH, HALT, and the loss of a core (12 R392, R395; 14 R414 to R424). -/
namespace Sys2Proof.Machine
open Sys2Proof

/-! ### The shared steps of R417 -/

/-- The status word (14 R417). -/
def sysStatus (code mask count : Nat) : Word := wd (code * 2 ^ 56 + mask % 65536 * 2 ^ 32 + count % 2 ^ 32)
def State.sysEnd (s : State) (c : CoreId) (n : Nat) (st : Strand) (d : Reg) (commit : State → State) (code mask count : Nat) : State :=
  (commit s).writeBack c n (st.setP3 (code = 0)) (some d) (sysStatus code mask count)

/-- The member's work has begun: a stop waits for its end (14 R417). Phase 2 says that the new map is being published (R421 step 5). -/
def State.sysWait (s : State) (c : CoreId) (n : Nat) (st : Strand) (cls : WaitClass) (phase : Nat) : State :=
  s.block c n { st with bulk := some { img := [], len := 0, pos := 0, phase := phase } } cls
/-- Steps 1 to 3: release, the 128-byte descriptor, and the groom check. -/
def State.sysOp (s : State) (o : OpDA) (fn : Nat)
    (k : CoreId → Nat → Strand → List Byte → (State → State) → State → State) : State :=
  s.issue o.g (some (memberInfo 5 4 fn)) [o.a] [o.a] (some o.d) (fun c n st v commit s =>
    let s := s.drainQueue c st
    if !s.quiet c st false then s.block c n st .mem
    else if (v0 v).toNat % 64 != 0 then s.takeFault c n st (fAlign (v0 v) 64)
    else match s.readVa c n st (v0 v) 128 (memberInfo 5 4 fn) with
      | .wait s => s
      | .fault f s => s.takeFault c n st f
      | .ok b s =>
        if (s.core c).cfg.ln != 0xFFFF then s.sysEnd c n st o.d commit 5 0 0
        else k c n st b commit s)

/-! ### HOLD and RELEASE (14 R418) -/

/-- A launch that will give up its slot by itself. -/
def Launch.ending (l : Launch) : Bool :=
  l.stopping || (match l.state with | .sweeping => true | .completing => true | _ => false)

def setHeld (b : Bool) (k : Core) : Core := { k with cfg := { k.cfg with partcfg := setBit k.cfg.partcfg 46 b } }

/-- One launch under a HOLD: whether the HOLD waits for it, and whether it keeps running. -/
def State.holdLaunch (s : State) (p : Nat) (l : Launch) : Bool × Bool × State :=
  match l.slot, s.part p, s.context p l.asid with
  | some _, some x, some k =>
    let free := l.gangs.filter (fun g => !g.stopping)
    if l.ending || l.startSeam then (true, false, s)
    else if l.gangs.isEmpty && recPreemptible l.words then (false, false, s.freeIfSaved p l.order)
    else if free.isEmpty && !l.gangs.isEmpty then (true, false, s)
    else if recPreemptible l.words && s.poolReady p x k (free.length * l.gangSize) then
      (true, false, s.modLaunch p l.order (fun l => { l with gangs := l.gangs.map (fun g => { g with stopping := true }) }))
    else (l.gangs.any (·.stopping), true, s)
  | _, _, _ => (false, false, s)
def State.holdLaunches (s : State) (p : Nat) : List Launch → Bool × Nat × State
  | [] => (false, 0, s)
  | l :: t =>
    let a := s.holdLaunch p l
    let b := a.2.2.holdLaunches p t
    (a.1 || b.1, b01 a.2.1 + b.2.1, b.2.2)
/-- One pass of HOLD: whether it still waits, and how many launches keep running. -/
def State.holdPass (s : State) (p : Nat) : Bool × Nat × State :=
  match s.part p with
  | none => (false, 0, s)
  | some x =>
    let s := overCores (s.setPart p { x with held := true }) (fun s c => s.modCore c (setHeld true)) (s.ownCores p)
    s.holdLaunches p x.launches
/-- RELEASE; copies that the held partition refused are told (09 R296, R303). -/
def State.release (s : State) (p : Nat) : State :=
  overCores (s.modPart p (fun x => { x with held := false })) (fun s c =>
    (sendNotices s c (s.core c).notify).modCore c (fun k => setHeld false { k with notify := [] })) (s.ownCores p)

/-- QUIESCE (14 R418). -/
def State.quiesce (s : State) (o : OpDA) : State :=
  s.sysOp o 0 (fun c n st b commit s =>
    let op := fld (dwAt b 0) 63 56
    let num := fld (dwAt b 0) 51 48
    let p := 16 * c.w + num
    if op != 1 && op != 2 then s.sysEnd c n st o.d commit 2 0 0
    else if (s.part p).isNone then s.sysEnd c n st o.d commit 2 (2 ^ num) 0
    else if op = 2 then (s.release p).sysEnd c n st o.d commit 0 0 0
    else
      let h := s.holdPass p
      if h.1 then h.2.2.sysWait c n st .msg 1
      else if h.2.1 = 0 then h.2.2.sysEnd c n st o.d commit 0 0 0
      else h.2.2.sysEnd c n st o.d commit 6 (2 ^ num) h.2.1)
/-- QUIESCE; the descriptor's OP decides between HOLD and RELEASE (log 6). -/
def execQuiesceHold (o : OpDA) (s : State) : Out := .next (s.quiesce o)
def execQuiesceRelease (o : OpDA) (s : State) : Out := .next (s.quiesce o)

/-! ### PARTSET (14 R419 to R421) -/

structure PartDesc where
  fields : Fields
  vmid : Nat
  valid : Bool
  part : Nat
  merge : List Nat
  wslots : Word
  mask : Nat
  isets : List Word
  reserved : Bool

/-- The defined fields of an interleave set (14 R414). -/
def isetBits : Nat := 2 ^ 64 - 2 ^ 28 + 2 ^ 14 - 1
def partDesc (w : Nat) (b : List Byte) : PartDesc :=
  let h := dwAt b 0
  { fields := { w := w, fx0 := fld h 31 28, fy0 := fld h 27 24, fwm1 := fld h 23 20, fhm1 := fld h 19 16 }, vmid := fld h 13 8,
    valid := bitAt h 4, part := fld h 3 0, merge := bitsOf 16 (fld (dwAt b 8) 15 0), wslots := wd (fld (dwAt b 16) 41 0),
    mask := fld (dwAt b 24) 7 0, isets := (span 0 8).map (fun i => ctlTake 0 (dwAt b (0x20 + 8 * i)) isetBits),
    reserved := fld h 63 32 != 0 || fld h 15 14 != 0 || fld h 7 5 != 0 || (span 0 4).any (fun i => dwAt b (0x60 + 8 * i) != 0) }
def PartDesc.writes (d : PartDesc) (i : Nat) : Bool := d.mask / 2 ^ i % 2 = 1
def PartDesc.set (d : PartDesc) (i : Nat) : Word := d.isets.getD i 0

def maskOfParts (l : List Nat) : Nat := (l.map (fun p => 2 ^ (p % 16))).sum
/-- PART and the MERGE partitions that exist. -/
def State.groupOf (s : State) (w : Nat) (d : PartDesc) : List Nat :=
  ((d.part :: d.merge).map (fun n => 16 * w + n)).filter (fun p => (s.part p).isSome)

/-- Fields of other partitions in the rectangle, and MERGE partitions that reach outside it. -/
def State.partOverlap (s : State) (w : Nat) (d : PartDesc) : List Nat :=
  let group := s.groupOf w d
  (s.parts.filter (fun x => waferOfPart x.1 = w &&
    (if x.1 = 16 * w + d.part then false
     else if group.contains x.1 then !(x.2.fields x.1).inside d.fields
     else (x.2.fields x.1).list.any (fun f => d.fields.list.contains f)))).map (·.1)
/-- A launch holds a slot, or a copy is RUNNING. -/
def State.partBusy (s : State) (p : Nat) : Bool × Nat :=
  match s.part p with
  | none => (false, 0)
  | some x =>
    let n := (x.launches.filter (fun l => l.slot.isSome)).length
    (n != 0 || (s.ownCores p).any (fun c => (s.core c).records.any (fun r => r.2.isCopy && r.2.running)), n)
/-- Partitions of the group with an ASID that another of them has too. -/
def State.asidClash (s : State) (group : List Nat) : List Nat :=
  let asids : Nat → List Nat := fun p => match s.part p with | none => [] | some x => x.contexts.map (·.asid)
  group.filter (fun p => (asids p).any (fun a => group.any (fun q => q != p && (asids q).contains a)))

/-- The first check that fails, as CODE, MASK, COUNT (14 R420). A dissolution has no rectangle to overlap (log 37). -/
def State.partCheck (s : State) (w : Nat) (d : PartDesc) : Option (Nat × Nat × Nat) :=
  let group := s.groupOf w d
  let live := (s.userCores d.fields).length
  let badSet : Nat → Bool := fun i => d.writes i && (fld (d.set i) 31 29 > 4 ||
    (d.valid && bitAt (d.set i) 28 && (fld (d.set i) 47 32 = 0 || fld (d.set i) 63 48 + fld (d.set i) 47 32 > live)))
  if d.reserved || !d.fields.valid || d.merge.contains d.part || (!d.valid && !d.merge.isEmpty) || (span 0 8).any badSet then
    some (2, 0, 0)
  else
    let met := if d.valid then s.partOverlap w d else []
    if !met.isEmpty then some (3, maskOfParts met, 0)
    else
      let busy := group.filter (fun p => (s.partBusy p).1)
      if !busy.isEmpty then some (1, maskOfParts busy, (busy.map (fun p => (s.partBusy p).2)).sum)
      else
        let clash := s.asidClash group
        if !clash.isEmpty then some (4, maskOfParts clash, 0)
        else if d.valid && wheelPeriod s.pkg.paddocks d.fields > 4096 then some (7, 2 ^ d.part, 0)
        else none

def partcfgWord (num vmid edge : Nat) (held : Bool) : Word :=
  wd (num * 2 ^ 48 + 2 ^ 47 + b01 held * 2 ^ 46 + vmid * 2 ^ 40 + edge * 2 ^ 36)

/-- A core leaves every partition: it is not numbered (14 R414). -/
def Core.unown (k : Core) : Core := { k with cfg := { k.cfg with partcfg := 0, ln := 0xFFFF } }
/-- A core of the rectangle takes its partition's registers. -/
def Core.own (k : Core) (d : PartDesc) (c : CoreId) (period : Nat) (lmap : Word) (old : Option (Vector Word 8)) : Core :=
  let base := match old with | none => k.cfg.iset | some v => v
  { k with cfg := { k.cfg with
      partcfg := partcfgWord d.part d.vmid (d.fields.edge c) (bitAt k.cfg.partcfg 46), ln := 0xFFFF,
      iset := Vector.ofFn (fun i : Fin 8 => if d.writes i.val then d.set i.val else base[i]), wheelcfg := wd period, wslots := d.wslots,
      lmap := lmap } }

/-- Translations tagged with an old VMID that is not kept are dropped, with the walks under it (14 R421 step 3). -/
def State.dropVmids (s : State) (p : Nat) (gone : List Nat) : State :=
  let s := s.dropTlbs p (fun t => gone.contains t.vmid)
  { s with walks := s.walks.filter (fun w => !(s.partOf w.core = p && gone.contains w.vmid)) }

/-- An empty partition of a rectangle (log 37). -/
def Partition.fresh (f : Fields) (vmid vf : Nat) : Partition :=
  { fx0 := f.fx0, fy0 := f.fy0, fwm1 := f.fwm1, fhm1 := f.fhm1, vmid := vmid, vf := vf, live := [], retired := [], newMap := none,
    losing := none, gen := 0, held := false, contexts := [], launches := [], launchNo := 0, discards := 0, refusals := 0, errors := 0, period := 0,
    wheelNext := 0, tearing := [],
    invq := [], logs := [], logLast := [], seamReqs := [], fabSent := [], fabResults := [], mirrorSeq := [], dumpQueue := [],
    dumpSkips := 0, hostRefused := 0 }
/-- A merged partition's contexts, queues and saved gangs join PART (14 R421 step 6). -/
def Partition.absorb (x y : Partition) (f : Nat → Nat) : Partition :=
  { x with contexts := x.contexts ++ y.contexts.map (fun k => { k with home := f k.home }),
           launches := x.launches ++ y.launches.map (fun l => { l with home := f l.home, order := l.order + x.launchNo }),
           launchNo := x.launchNo + y.launchNo, discards := min (x.discards + y.discards) (2 ^ 32 - 1),
           refusals := min (x.refusals + y.refusals) (2 ^ 32 - 1), held := x.held || y.held }
def absorbAll (s : State) (live : List CoreId) (x : Partition) : List Nat → Partition
  | [] => x
  | q :: t =>
    match s.part q with
    | none => absorbAll s live x t
    | some y => absorbAll s live (x.absorb y (newLn y.live live)) t

/-- What named a merged partition names PART. -/
def Package.repart (k : Package) (gone : List Nat) (p : Nat) : Package :=
  let f : Nat → Nat := fun q => if gone.contains q then p else q
  { k with vfs := k.vfs.map (fun v => (v.1, { v.2 with part := f v.2.part })),
           doorbells := k.doorbells.map (fun d => (d.1, { d.2 with part := f d.2.part })),
           windows := k.windows.map (fun w => (w.1, f w.2.1, w.2.2)) }
/-- The VF switched into a new partition: one that Ralax maps to it, else the VF of its number (log 37). -/
def Package.vfOf (k : Package) (p : Nat) : Nat :=
  match k.vfs.find? (fun v => v.2.part = p) with
  | some v => v.1
  | none => p % 16

/-- R421 for a dissolution: PART's contexts and queues end with it. -/
def State.dissolve (s : State) (p : Nat) : State :=
  match s.part p with
  | none => s
  | some x =>
    let s := s.dropVmids p [x.vmid]
    let s := s.discard p x.launches
    let s := overCores s (fun s c => s.modCore c Core.unown) (s.ownCores p)
    { s with parts := s.parts.filter (fun y => y.1 != p) }

/-- R421 for a rectangle, but for the publication of its map. -/
def State.partApply (s : State) (w : Nat) (d : PartDesc) : State :=
  let p := 16 * w + d.part
  let group := s.groupOf w d
  let merged := group.filter (fun q => q != p)
  let old := group.filterMap s.part
  let gone := (old.map (·.vmid)).filter (fun v => v != d.vmid)
  let s := group.foldl (fun s q => s.dropVmids q gone) s
  let prior := s.part p
  let x := (prior.getD (Partition.fresh d.fields d.vmid (s.pkg.vfOf p)))
  let head := match prior with | none => none | some y => match y.live with | [] => none | c :: _ => some (s.core c).cfg.iset
  let live := s.userCores d.fields
  let leaving := (group.map s.ownCores).flatten.filter (fun c => !d.fields.has c)
  let period := wheelPeriod s.pkg.paddocks d.fields
  let mine := (s.cores.filter (fun e => d.fields.has (coreOfKey e.1))).map (fun e => coreOfKey e.1)
  let s := overCores s (fun s c => s.modCore c Core.unown) leaving
  let s := overCores s (fun s c => s.modCore c (fun k => k.own d c period (wd (mapBase live)) head)) mine
  let f := newLn x.live live
  let x : Partition := { x with fx0 := d.fields.fx0, fy0 := d.fields.fy0, fwm1 := d.fields.fwm1, fhm1 := d.fields.fhm1, vmid := d.vmid }
  let x : Partition := { x with contexts := x.contexts.map (fun k => { k with home := f k.home }),
                                launches := x.launches.map (fun l => { l with home := f l.home }),
                                retired := x.retired.map (fun r => (f r.1, f r.2)), live := live }
  let x := absorbAll s live x merged
  let s : State := { s with parts := tblSet (s.parts.filter (fun y => !merged.contains y.1)) p x, pkg := s.pkg.repart merged p }
  s.adoptMap p live

/-- A launch-tagged message of these partitions is in flight. -/
def State.taggedOpen (s : State) (group : List Nat) : Bool :=
  s.net.any (fun m => match m.tag with | none => false | some t => group.contains t.part)

/-- PARTSET (14 R419 to R421). The strand waits until the map is published and in force. -/
def State.partset (s : State) (o : OpDA) : State :=
  s.sysOp o 1 (fun c n st b commit s =>
    let d := partDesc c.w b
    let p := 16 * c.w + d.part
    let open' := (s.groupOf c.w d).any (fun q => match s.part q with | none => false | some x => x.newMap.isSome)
    let published : Bool := match st.bulk with | none => false | some b => b.phase = 2
    if published then (if open' then s.sysWait c n st .msg 2 else s.sysEnd c n st o.d commit 0 0 0)
    else match s.partCheck c.w d with
    | some (code, mask, count) => s.sysEnd c n st o.d commit code mask count
    | none =>
      if s.taggedOpen (s.groupOf c.w d) || open' then s.sysWait c n st .msg 1
      else if d.valid then
        let s := s.partApply c.w d
        (s.beginMap p (s.coresOf p) none).sysWait c n st .msg 2
      else (s.dissolve p).sysEnd c n st o.d commit 0 0 0)
/-- PARTSET; VALID in the descriptor decides between writing and dissolving (log 6). -/
def execPartset (o : OpDA) (s : State) : Out := .next (s.partset o)
def execPartsetDissolve (o : OpDA) (s : State) : Out := .next (s.partset o)

/-! ### WSWITCH (14 R422, R423) -/

/-- What leaves with a VF. -/
def State.vfSave (s : State) (x : Partition) : VfSave :=
  let cs := List.zip (span 0 x.live.length) x.live
  { contexts := x.contexts, launches := x.launches, discards := x.discards, refusals := x.refusals,
    ctrs := (cs.map (fun e => (e.1, (s.core e.2).dbg.ctr))).filter (fun e => e.2 != Vector.replicate 8 (0, 0)),
    ovf := (cs.map (fun e => (e.1, (s.core e.2).dbg.ovfpend))).filter (fun e => e.2 != 0) }
def VfSave.empty : VfSave := { contexts := [], launches := [], discards := 0, refusals := 0, ctrs := [], ovf := [] }

/-- Counters of every core are loaded, and pending overflow interrupts are delivered (14 R423; 15 R448, R449). -/
def State.loadCounters (s : State) (v : VfSave) (vf : Nat) : List (Nat × CoreId) → State
  | [] => s
  | (ln, c) :: t =>
    let s := s.modCore c (fun k => { k with dbg := { k.dbg with ctr := tblGet (Vector.replicate 8 (0, 0)) v.ctrs ln, ovfpend := 0 } })
    let s := if tblGet 0 v.ovf ln = 0 then s
      else { s with pkg := { s.pkg with interrupts := s.pkg.interrupts ++ [(vf, tblGet 0 v.ovf ln)] } }
    s.loadCounters v vf t

/-- Held launch records of a VF are delivered in arrival order (14 R423). -/
def State.deliverHeld (s : State) (p : Nat) : List (Nat × Vector Word 8) → State
  | [] => s
  | (i, w) :: t =>
    match List.lookup i s.pkg.doorbells with
    | none => s.deliverHeld p t
    | some d =>
      let r := s.enqueueLaunch p d.asid w
      let status := if hKind r.1 = 3 then r.1.toNat % 256 else 0
      let s : State := { r.2 with pkg := { r.2.pkg with doorbells := tblSet r.2.pkg.doorbells i { d with status := status } } }
      s.deliverHeld p t

/-- Steps 1 to 5 of R423, once OUTSAVE and INSAVE are translated. A state area holds the number of the state kept (log 38). -/
def State.switchVf (s : State) (p : Nat) (x : Partition) (outPa inTok inVf inVmid : Nat) (first : Bool) : State :=
  let w : Writer := { asid := 0, log := false, leaf := 0, kind := 3, strand := false, ref := none }
  let tok := s.pkg.vfSaves.length
  let load := if first then VfSave.empty else s.pkg.vfSaves.getD inTok VfSave.empty
  let s : State := { s with pkg := { s.pkg with vfSaves := s.pkg.vfSaves ++ [s.vfSave x] } }
  let s := (s.writePa outPa (leBytes 8 tok) w).dropVmids p [x.vmid]
  let s := s.setPart p { x with contexts := load.contexts,
                                launches := load.launches.map (fun l => { l with order := l.order + x.launchNo }),
                                launchNo := (load.launches.map (·.order)).foldl max 0 + x.launchNo + 1, discards := load.discards, refusals := load.refusals, vf := inVf,
                                vmid := inVmid }
  let s := s.loadCounters load inVf (List.zip (span 0 x.live.length) x.live)
  let v := tblGet { part := p, vmid := inVmid, fabric := false, heldRecs := [] } s.pkg.vfs inVf
  let s := overCores s (fun s c => s.modCore c (fun k =>
    { k with cfg := { k.cfg with partcfg := setFld k.cfg.partcfg 45 40 inVmid, fabcfg := setBit k.cfg.fabcfg 14 v.fabric } })) (s.ownCores p)
  let v' : Vf := { v with part := p, vmid := inVmid, heldRecs := [] }
  let s : State := { s with pkg := { s.pkg with vfs := tblSet s.pkg.vfs inVf v' } }
  (s.deliverHeld p v.heldRecs).release p

/-- WSWITCH (14 R422, R423). -/
def execWswitch (o : OpDA) (s : State) : Out :=
  .next (s.sysOp o 2 (fun c n st b commit s =>
    let h := dwAt b 0
    let num := fld h 19 16
    let p := 16 * c.w + num
    let out := dwAt b 8
    let inn := dwAt b 16
    match s.part p with
    | none => s.sysEnd c n st o.d commit 2 (2 ^ num) 0
    | some x =>
      if fld h 63 46 != 0 || fld h 39 38 != 0 || fld h 31 20 != 0 || fld h 15 14 != 0 || fld h 7 0 != 0 ||
          (span 0 13).any (fun i => dwAt b (0x18 + 8 * i) != 0) || fld h 37 32 != x.vf || out.toNat % 65536 != 0 ||
          inn.toNat % 65536 != 0 then s.sysEnd c n st o.d commit 2 0 0
      else
        let r := s.holdPass p
        if r.1 then r.2.2.sysWait c n st .msg 1
        else if r.2.1 != 0 then (r.2.2.release p).sysEnd c n st o.d commit 6 (2 ^ num) r.2.1
        else match r.2.2.resolve (placeCtx c st) st .va out 0 kWrite (memberInfo 5 4 2) with
          | .wait s => s.sysWait c n st .mem 1
          | .fault f s => s.takeFault c n st f
          | .ok outPa _ s =>
            let st : Strand := { st with bulk := some { img := [], len := 0, pos := 0, phase := 1 } }
            match (if inn = 0 then .ok (List.replicate 8 (0 : Byte)) s else s.readVaAt c n st 128 inn 8 (memberInfo 5 4 2)) with
            | .wait s => s
            | .fault f s => s.takeFault c n st f
            | .ok tok s =>
              match s.part p with
              | none => s.sysEnd c n st o.d commit 2 (2 ^ num) 0
              | some x =>
                (s.switchVf p x outPa (ofLe tok) (fld h 45 40) (fld h 13 8) (inn = 0)).sysEnd c n st o.d commit 0 0 0))

/-! ### HALT (14 R424) -/

/-- HALT: only a groom halts, until Ralax is loaded again. -/
def execHalt (o : Op0) (s : State) : Out :=
  .next (s.issue o.g (some (memberInfo 5 4 3)) [] [] none (fun c n st _ _ s =>
    if !(s.core c).cfg.groom then s.takeFault c n st (fPrivilege 0 (memberInfo 5 4 3))
    else
      let s := (s.complete c n st).modCfg c (fun k => { k with halted := true })
      { s with pkg := { s.pkg with haltedFields := setAdd s.pkg.haltedFields (fieldNo c) } }))

/-! ### Loss of a core (12 R392, R395) -/

/-- The record of R392 for a lost core. -/
def lossRecord (s : State) (c : CoreId) : FaultRec :=
  { source := 0, reason := 0, kind := 9, tsc := s.now c, sid := 0, ln := (s.core c).cfg.ln, pc := 0, addr := wd (coreBase c), info := 0,
    handle := 0 }
/-- A launch slot has a strand, crew, record or undelivered message on a core. -/
def State.slotOn (s : State) (c : CoreId) (n : Nat) : Bool :=
  let k := s.core c
  !k.idle n || (List.lookup n k.crews).isSome ||
  s.net.any (fun m => m.dst = c && (match m.tag with | none => false | some t => t.lslot = n))
def State.endLost (s : State) (p : Nat) (c : CoreId) (f : FaultRec) : List Launch → State
  | [] => s
  | l :: t =>
    let s := match l.slot with
      | none => s
      | some n => if s.slotOn c n then s.noteFault p l.order f else s
    s.endLost p c f t
/-- A lost core holds nothing; messages to it end there, and what it counted is kept with the partition's first live core (log 39). -/
def State.loseCore (s : State) (c : CoreId) (heir : Option CoreId) : State :=
  let k := s.core c
  let lost := s.net.filter (fun m => m.dst = c)
  let s : State := { s with net := s.net.filter (fun m => m.dst != c) }
  let s := match heir with
    | none => s
    | some h => s.modCore h (fun (y : Core) =>
        let y : Core := k.lctr.foldl (fun (y : Core) (e : Nat × LaunchCtr) => y.countSent e.1 e.2.sent e.2.recv) y
        lost.foldl (fun (y : Core) (m : Msg) => match m.tag with | none => y | some t => y.countSent t.lslot 0 1) y)
  s.setCore c { Core.reset with cfg := { k.cfg with cls := .dead, groom := k.cfg.groom } }

/-- The positions in a paddock that pass traffic no more: their launches end, whichever partition they belong to, and the dispatcher of that
partition is held (12 R377, R392). -/
def loseAll (lost : List CoreId) : State → List CoreId → State
  | s, [] => s
  | s, c :: t =>
    let p := s.partOf c
    match (s.core c).owned, s.part p with
    | true, some x =>
      let s := (s.endLost p c (lossRecord s c) x.launches).loseCore c (x.live.find? (fun d => !lost.contains d))
      loseAll lost (s.modPart p (fun x => { x with held := true, losing := some (x.losing.getD x.held) })) t
    | _, _ => loseAll lost (s.loseCore c none) t
/-- Once no launch of a held partition holds a slot, its map is published without the lost cores, and the hold is taken back
(12 R380, R392; log 39). -/
def State.lossStep (s : State) (p : Nat) : State :=
  match s.part p with
  | none => s
  | some x =>
    match x.losing with
    | none => s
    | some held =>
      if x.newMap.isSome then s
      else
        let h := s.holdLaunches p x.launches
        if h.1 || x.launches.any (fun l => l.slot.isSome) then h.2.2
        else (s.beginMap p (s.userCores (x.fields p)) (some held)).modPart p (fun x => { x with losing := none })

/-- CORE_LOSS (12 R392): a core or router fails. The launches on every position of the grown paddock end and their dispatchers are held;
once no launch of a partition holds a slot, its map is published and the hold is taken back (log 39). -/
def execCoreLoss (o : EvCore) (s : State) : Out :=
  .next (
    let passes : Core → Bool := fun k => match k.cfg.cls with | .live => true | .dark => true | _ => false
    if passes (s.core o.c) then
      let pads := growPaddocks 4096 (paddockAt o.c.w (o.c.x, o.c.y) :: s.pkg.paddocks)
      let lost := (s.cores.filter (fun e => passes e.2 && inPaddock pads (coreOfKey e.1))).map (fun e => coreOfKey e.1)
      loseAll lost { s with pkg := { s.pkg with paddocks := pads } } lost
    else s.lossStep (s.partOf o.c))

end Sys2Proof.Machine
end

