-- ==== Sys2Proof/Machine/Debugger.lean ====
section
/-! DEFINITION. Log slots, seams and unpicking, stops, programmable counters and core dumps (15 R432 to R452). -/
namespace Sys2Proof.Machine
open Sys2Proof

/-! ### Counters (15 R448, R449) -/

/-- A reserved EVENT code. -/
def badEvent (e : Nat) : Bool := e = 0 || e > 0x10
/-- The bits CTRCFG takes from its source. -/
def ctrBits : Nat := 2 ^ 63 + 2 ^ 62 + 2 ^ 61 + (2 ^ 48 - 2 ^ 40)
/-- VALUE as CTRRD gives it: 0 for a fabric event without permission. -/
def State.ctrValue (s : State) (c : CoreId) (v : Word × Word) : Word :=
  let e := fld v.2 47 40
  if (e = 0x0F || e = 0x10) && !s.fabricVf (s.partOf c) then 0 else wd (fld v.1 47 0)
/-- The counter a selector names. -/
def State.ctrRead (s : State) (c : CoreId) (a : Word) : Word :=
  let k := s.core c
  if fld a 9 8 = 0 then s.ctrValue c (k.dbg.ctr.toList.getD (fld a 2 0) (0, 0))
  else if fld a 9 8 = 1 then (if fld a 5 0 < 53 then wd (tblGet 0 k.counters (fld a 5 0)) else 0)
  else if fld a 9 8 = 2 then wd (tblGet 0 k.numevt (fld a 5 0))
  else 0

/-- CTRRD. -/
def execCtrrd (o : OpDA) (s : State) : Out :=
  .next (s.issue o.g (some (memberInfo 5 5 0)) [o.a] [o.a] (some o.d) (fun c n st v commit s =>
    (commit s).writeBack c n st (some o.d) (s.ctrRead c (v0 v))))

/-- A counter takes a configuration. -/
def ctrConfig (old : Word × Word) (v : Word) (vmid : Nat) : Word × Word :=
  (if bitAt v 60 then 0 else old.1, setFld (ctlTake 0 v ctrBits) 37 32 vmid)
/-- CTRCFG. -/
def execCtrcfg (o : OpAB) (s : State) : Out :=
  .next (s.issue o.g (some (memberInfo 5 5 1)) [o.a, o.b] [o.a, o.b] none (fun c n st v commit s =>
    if badEvent (fld (v1 v) 47 40) then (commit s).complete c n (st.setP3 false)
    else
      let i := fld (v0 v) 2 0
      ((commit s).modCore c (fun k =>
        let x := ctrConfig (k.dbg.ctr.toList.getD i (0, 0)) (v1 v) k.vmid
        { k with dbg := { k.dbg with ctr := k.dbg.ctr.setIfInBounds i x } })).complete c n (st.setP3 true)))

/-- The 256-byte area of a core's counters. -/
def Core.ctrArea (k : Core) : List Byte :=
  (k.dbg.ctr.toList.map (fun v => leBytes 8 v.1.toNat ++ leBytes 8 v.2.toNat)).flatten ++ leBytes 8 (k.dbg.ovfpend % 256) ++
    leBytes 120 0
/-- CTRSAVE: the values are those of one moment, and each turn writes one granule of them. -/
def execCtrsave (o : OpA) (s : State) : Out :=
  .next (s.issue o.g (some (memberInfo 5 5 2)) [o.a] [o.a] none (fun c n st v commit s =>
    if (v0 v).toNat % 64 != 0 then s.takeFault c n st (fAlign (v0 v) 64)
    else
      let b : Bulk := st.bulk.getD { img := memWrite [] 0 (s.core c).ctrArea, len := 256, pos := 0, phase := 1 }
      if b.pos < b.len then s.putGranule c n st (v0 v) b (memberInfo 5 5 2)
      else (commit s).complete c n st))

/-- CTRLOAD: VALUE, CONFIG and OWNER of all counters; then a pending overflow interrupt goes to the owner VF. -/
def execCtrload (o : OpA) (s : State) : Out :=
  .next (s.issue o.g (some (memberInfo 5 5 3)) [o.a] [o.a] none (fun c n st v commit s =>
    if (v0 v).toNat % 64 != 0 then s.takeFault c n st (fAlign (v0 v) 64)
    else match s.readVa c n st (v0 v) 256 (memberInfo 5 5 3) with
      | .wait s => s
      | .fault f s => s.takeFault c n st f
      | .ok b s =>
        let ctr : Vector (Word × Word) 8 := Vector.ofFn (fun i : Fin 8 =>
          (wd (fld (dwAt b (16 * i.val)) 47 0), ctlTake 0 (dwAt b (16 * i.val + 8)) (ctrBits + (2 ^ 38 - 2 ^ 32))))
        let pend := fld (dwAt b 0x80) 7 0
        let s := (commit s).modCore c (fun k => { k with dbg := { k.dbg with ctr := ctr, ovfpend := 0 } })
        let vf := match s.part (s.partOf c) with | none => 0 | some x => x.vf
        let s : State := if pend = 0 then s else { s with pkg := { s.pkg with interrupts := s.pkg.interrupts ++ [(vf, pend)] } }
        s.complete c n st))

/-! ### Log slots (15 R432) -/

def State.setLast (s : State) (p n code : Nat) : State := s.modPart p (fun x => { x with logLast := tblSet x.logLast n code })

/-- The shed registers of a slot on every core. -/
def State.setSheds (s : State) (p n : Nat) (d : Word × Word) : State :=
  overCores s (fun s c => s.modCore c (fun k => k.setShed n d)) (s.ownCores p)
/-- Everything the frozen context keeps standing may go on. -/
def State.thaw (s : State) (p : Nat) (asid : Nat) : State :=
  overCores s (State.resumeOthers · p (fun st => st.asid = asid)) (s.coresOf p)

/-- A descriptor that is not installed. -/
def State.logRefused (s : State) (p : Nat) (b : List Byte) : Bool :=
  let w := dwAt b 0
  let h := dwAt b 8
  let m := dwAt b 16
  fld w 62 60 != 0 || fld w 55 16 != 0 || fld w 59 58 = 3 || fld h 47 30 != 0 || fld h 15 0 != 0 ||
  (span 0 3).any (fun i => dwAt b (0x28 + 8 * i) != 0) ||
  (bitAt w 63 &&
    (fld h 63 48 = 0 || fld m 22 16 = 0 || fld m 22 16 > 64 || fld h 29 16 * 65536 + fld h 63 48 * 65536 > 0x20000000 ||
     (match s.part p with
      | none => true
      | some x => x.logs.any (fun l => l.1 != fld w 57 56 && l.2.asid = fld w 15 0))))

def logSlotOfDesc (asid : Nat) (b : List Byte) : LogSlot :=
  let w := dwAt b 0
  { asid := fld w 15 0, policy := fld w 59 58, shsize := fld (dwAt b 8) 63 48, shbase := fld (dwAt b 8) 29 16,
    maxseam := fld (dwAt b 16) 22 16, rsv := fld (dwAt b 16) 15 0, snap := dwAt b 0x18, snapsz := (dwAt b 0x20).toNat,
    snapAsid := asid, cur := 0,
    starts := 0, seams := [], busy := none, frozen := false, lost := false }

/-- A slot with its sheds and seams goes away; a context it froze runs on. -/
def State.removeLog (s : State) (p n : Nat) : State :=
  match s.part p with
  | none => s
  | some x =>
    match List.lookup n x.logs with
    | none => s
    | some l => ((s.setPart p { x with logs := x.logs.filter (fun y => y.1 != n) }).setSheds p n (0, 0)).thaw p l.asid

/-- MTSP to LOGCTL (R432): the slot's old state goes, in each turn 768 cores, as many as a field has, take the new
registers, and with the last the slot is in use (log 9). -/
def State.logctl (s : State) (g : Guard) (d : Reg) : State :=
  s.mtspOp g d (fun c n st v commit s =>
    s.mtspDesc c n st (v0 v) (fun b s =>
      let p := s.partOf c
      let i := fld (dwAt b 0) 57 56
      let on := bitAt (dwAt b 0) 63
      match st.bulk with
      | none =>
        if s.logRefused p b then ((commit s).setLast p i 6).complete c n st
        else (s.removeLog p i).block c n { st with bulk := some { img := [], len := (s.ownCores p).length, pos := 0 } } .msg
      | some j =>
        let d : Word × Word := if on then (wd ((dwAt b 8).toNat), 0) else (0, 0)
        if j.pos < j.len then
          (overCores s (fun s h => s.modCore h (fun k => k.setShed i d)) (((s.ownCores p).drop j.pos).take 768)).block c n
            { st with bulk := some { j with pos := j.pos + 768 } } .msg
        else
          let s := commit s
          let s := if on then s.modPart p (fun x => { x with logs := tblSet x.logs i (logSlotOfDesc st.asid b) }) else s
          (s.setLast p i 0).complete c n st))
/-- LOGCTL with VALID = 1 in the descriptor; the descriptor decides (log 6). -/
def execLogctlInstall (o : OpD) (s : State) : Out := .next (s.logctl o.g o.d)
/-- LOGCTL with VALID = 0 in the descriptor; the descriptor decides (log 6). -/
def execLogctlRemove (o : OpD) (s : State) : Out := .next (s.logctl o.g o.d)

/-! ### Stops of a context (15 R437 steps 1 and 2) -/

/-- A strand that waits for the end of a seam or of a command stands at its boundary. -/
def Strand.asksSeam (st : Strand) : Bool :=
  match st.run with
  | .await _ r => (match r.cont with | .seam _ => true | .command => true | _ => false)
  | _ => false
/-- The strands and records of a context's launches; `me` is the strand whose command runs. -/
def ofLogged (asid : Nat) (me : Option Nat) (st : Strand) : Bool :=
  st.asid = asid && st.lslot.isSome && !st.asksSeam && some st.uid != me
def recOfLogged (asid : Nat) (r : Record) : Bool := r.asid = asid && r.lslot.isSome
/-- Launch slots that the context holds. -/
def Partition.slotsOf (x : Partition) (asid : Nat) : List Nat :=
  (x.launches.filter (fun l => l.asid = asid)).filterMap (·.slot)
/-- No launch-tagged message of these launches is in flight. -/
def State.slotsQuiet (s : State) (p : Nat) (slots : List Nat) : Bool :=
  s.net.all (fun m => match m.tag with | none => true | some t => !(t.part = p && slots.contains t.lslot))
def State.stopContext (s : State) (x : Partition) (asid : Nat) (me : Option Nat) : State :=
  overCores s (fun s c => s.stopCore c (ofLogged asid me) (recOfLogged asid)) x.live
def State.contextStill (s : State) (p : Nat) (x : Partition) (asid : Nat) (me : Option Nat) : Bool :=
  s.slotsQuiet p (x.slotsOf asid) && x.live.all (fun c => (s.core c).allStopped (ofLogged asid me) (recOfLogged asid))

/-! ### Seams (15 R436 to R438) -/

/-- The next seam number: 24 bits, skipping 0. -/
def nextSeam (n : Nat) : Nat := if (n + 1) % 2 ^ 24 = 0 then 1 else (n + 1) % 2 ^ 24

/-- A seam request reaches the home slice (R436). -/
def State.askSeam (s : State) (p slot : Nat) (ref : Option Ref) : State :=
  s.modPart p (fun x =>
    let q : SeamReq := { slot := slot, ref := ref, period := x.period }
    { x with seamReqs := x.seamReqs ++ [q] })

/-- SEAM (R438). -/
def execSeam (o : OpX) (s : State) : Out :=
  .next (s.issue o.g none [] [] (some o.x) (fun c n st _ commit s =>
    match s.logSlotOf (s.partOf c) st.asid with
    | none => (commit s).writeBack c n (st.setP3 false) (some o.x) 0
    | some (i, l) =>
      if l.off then (commit s).writeBack c n (st.setP3 false) (some o.x) 0
      else s.released c n st false (fun s =>
        ((commit s).askSeam (s.partOf c) i (some ⟨c, n, st.uid⟩)).putStrand c n { st with run := .await .msg (waitFor (.seam o.x)) })))

/-- A strand that asked is answered: a SEAM of a stopped context stands at its next instruction (R438). -/
def State.answerSeam (s : State) (r : Ref) (num : Nat) (ok stopped : Bool) : State :=
  match s.strandOf r with
  | none => s
  | some st =>
    match st.run with
    | .await _ q =>
      let s := (match q.cont with
        | .seam d => s.writeBack r.core r.slot (st.setP3 ok) (some d) (wd num)
        | _ => s.complete r.core r.slot st)
      (match s.strandOf r with
      | none => s
      | some st => if stopped && st.lslot.isSome then s.putStrand r.core r.slot { st with run := .stopped none } else s)
    | _ => s
def State.answerSeams (s : State) (num : Nat) (ok stopped : Bool) : List SeamReq → State
  | [] => s
  | q :: t =>
    (match q.ref with
    | none => s
    | some r => s.answerSeam r num ok stopped).answerSeams num ok stopped t

/-- What a core holds of a placed gang. -/
def State.seamSet (s : State) (p asid : Nat) (c : CoreId) (e : Launch × Nat × Gang) : SaveSet :=
  let lns := s.gangLns p e.1 e.2.2
  (s.core c).saveSet (ofGang asid e.2.1 lns) (recOfGang asid e.2.1 lns)
/-- A core has a record for a gang when it is one of the gang's, when something of the gang stands there, or when it holds a ring,
credit or barrier of the context (log 40). -/
def State.seamPart (s : State) (p asid : Nat) (c : CoreId) (e : Launch × Nat × Gang) : Bool :=
  let set := s.seamSet p asid c e
  let k := s.core c
  (e.1.gangCores p e.2.2).contains c || !set.frames.isEmpty || !set.recs.isEmpty || k.rings.any (fun r => r.2.asid = asid) ||
    k.credits.any (fun r => r.2.asid = asid) || k.bcbs.any (fun r => r.2.asid = asid)
/-- The parts of a snapshot: core by core, and on a core gang by gang. -/
def State.seamParts (s : State) (p asid : Nat) (live : List CoreId) (gs : List (Launch × Nat × Gang)) : List (Nat × Nat) :=
  ((List.zip (span 0 live.length) live).map (fun c =>
    ((List.zip (span 0 gs.length) gs).filter (fun g => s.seamPart p asid c.2 g.2)).map (fun g => (c.1, g.1)))).flatten
/-- The gangs of a context that are placed, in the order of launches. -/
def placedGangs (ls : List Launch) : List (Launch × Nat × Gang) :=
  (ls.map (fun l => match l.slot with | none => [] | some n => l.gangs.map (fun g => (l, n, g)))).flatten
/-- The records of the parts one after the other, at 64-byte boundaries (R437 step 5; log 40). -/
def State.seamImage (s : State) (p asid : Nat) (live : List CoreId) (gs : List (Launch × Nat × Gang)) : List (Nat × Nat) →
    List Host.Cell → Nat → List Host.Cell × Nat
  | [], img, at_ => (img, at_)
  | (i, j) :: t, img, at_ =>
    match live[i]?, gs[j]? with
    | some c, some e =>
      let r := s.recordImage c asid [wd (e.2.1 * 65536 + asid), 0] (s.seamSet p asid c e) false
      s.seamImage p asid live gs t (memPaste img 0 at_ r.1) (at_ + r.2)
    | _, _ => s.seamImage p asid live gs t img at_

/-- Area CUR mod MAXSEAM of the pool (R437). -/
def LogSlot.area (l : LogSlot) (n : Nat) : Word := l.snap + wd (n % l.maxseam * l.snapsz)

/-- The writer of snapshots and dumps: its events are never logged (R433). -/
def quietWriter (asid : Nat) : Writer := { asid := asid, log := false, leaf := 0, kind := 3, strand := false, ref := none }

/-- Step 5: whether the area took the snapshot, or a translation that must be made again. -/
def State.writeSnapshot (s : State) (p : Nat) (x : Partition) (l : LogSlot) (num : Nat) (gs : List (Launch × Nat × Gang)) :
    Option (Bool × State) :=
  match s.context p l.snapAsid with
  | none => some (false, s)
  | some k =>
    match s.lnCore p k.home with
    | none => some (false, s)
    | some h =>
      let r := s.seamImage p l.asid x.live gs (s.seamParts p l.asid x.live gs) [] 0
      if r.2 > l.snapsz then some (false, s)
      else match s.blocks (blockFuel r.2) (homeCtx h l.snapAsid) (l.area num) 0 r.2 kWrite 0 with
        | .ok bs s => some (true, s.putBlocks r.1 (quietWriter l.snapAsid) bs)
        | .fault _ s => some (false, s)
        | .wait _ => none

/-- What the dispatcher and the crew cores hold of a context (R437 step 5; R441 step 3). -/
def State.seamOf (s : State) (p : Nat) (x : Partition) (l : LogSlot) (num : Nat) (ok : Bool) : Seam :=
  let slots := x.slotsOf l.asid
  let cs := List.zip (span 0 x.live.length) x.live
  { n := num, starts := l.starts, nosnap := !ok, frayed := false,
    launches := (x.launches.filter (fun y => y.asid = l.asid && y.slot.isSome)).map (fun y => { y with startSeam := false }),
    crews := (cs.map (fun e => ((s.core e.2).crews.filter (fun y => slots.contains y.1)).map (fun y => (e.1, y)))).flatten,
    chans := (cs.map (fun e => ((s.core e.2).chans.filter (fun y => slots.contains y.lslot)).map (fun y => (e.1, y)))).flatten,
    parts := s.seamParts p l.asid x.live (placedGangs (x.launches.filter (fun y => y.asid = l.asid))) }

/-- Steps 3 to 6 of R437 for a context that stands still. -/
def State.openSeam (s : State) (p n : Nat) (x : Partition) (l : LogSlot) (now later : List SeamReq) : State :=
  let s1 := overCores s (fun s c => State.closeAll (s.core c).merges.length s c) x.live
  let s1 := if l.seams.length ≥ l.maxseam then s1.forgetOldest p n else s1
  let num := nextSeam l.cur
  let s1 := s1.answerSeams num true true now
  let s1 := s1.modLog p n (fun l => { l with cur := num, lost := false })
  match s1.writeSnapshot p x l num (placedGangs (x.launches.filter (fun y => y.asid = l.asid))) with
  | none => s
  | some (ok, s1) =>
    let m := s1.seamOf p x l num ok
    let s1 := s1.modLog p n (fun l => { l with seams := l.seams ++ [m] })
    let s1 := s1.modPart p (fun x => { x with
      seamReqs := later, launches := x.launches.map (fun y => if y.asid = l.asid then { y with startSeam := false } else y) })
    (overCores s1 (State.resumeOthers · p (fun st => st.asid = l.asid)) x.live).traceAll 0x0A 0 num x.live

/-- The requests that a seam of slot n serves now, which arrived in one wheel period, and the others (R436). -/
def Partition.seamTurn (x : Partition) (n : Nat) : List SeamReq × List SeamReq :=
  let mine := x.seamReqs.filter (fun q => q.slot = n && q.period < x.period)
  let first := (mine.map (·.period)).foldl min x.period
  let now : SeamReq → Bool := fun q => q.slot = n && q.period = first && q.period < x.period
  (x.seamReqs.filter now, x.seamReqs.filter (fun q => !now q))

/-- SEAM_OPEN (R436, R437): slot o.n serves the requests of the first wheel period that is over. A slot that was removed answers as
SEAM does without one. -/
def execSeamOpen (o : EvPartN) (s : State) : Out :=
  .next (match s.part o.p with
    | none => s
    | some x =>
      let q := x.seamTurn o.n
      if q.1.isEmpty then s
      else
        let none' := ((s.setPart o.p { x with seamReqs := q.2 }).answerSeams 0 false false q.1)
        match List.lookup o.n x.logs with
        | none => none'
        | some l =>
          if l.off then none'
          else if s.contextStill o.p x l.asid none then s.openSeam o.p o.n x l q.1 q.2
          else s.stopContext x l.asid none)

/-- FRAY_NOTICE (R443): the open window is frayed. -/
def execFrayNotice (o : EvMsg) (s : State) : Out :=
  s.onMsg o.i (fun m s =>
    match m.body with
    | .fray p asid =>
      let s := s.receive o.i m
      (match s.logSlotOf p asid with
      | none => s
      | some (n, _) => s.modLog p n (fun l =>
          { l with seams := l.seams.map (fun y => if y.n = l.cur then { y with frayed := true } else y) }))
    | _ => s)

/-! ### UNPICK, FORGET, RESUME (15 R439 to R441) -/

/-- Seams from N on, the oldest first. -/
def LogSlot.window (l : LogSlot) (num : Nat) : List Seam := l.seams.dropWhile (fun y => y.n != num)

/-- The first check of UNPICK that fails. -/
def State.unpickRefused (s : State) (p n num me : Nat) (force : Bool) : Option Nat :=
  match s.part p with
  | none => some 1
  | some x =>
    match List.lookup n x.logs with
    | none => some 1
    | some l =>
      let busy := match l.busy with
        | none => false
        | some u => u != me && s.cores.any (fun e => e.2.slots.any (fun y => y.2.uid = u))
      if busy then some 5
      else match l.window num with
        | [] => some 2
        | m :: t =>
          if m.nosnap then some 2
          else if m.starts != l.starts || !m.launches.all (fun y => x.launches.any (fun z => z.order = y.order && z.slot = y.slot)) then some 4
          else if !force && (m :: t).any (·.frayed) then some 3
          else none

/-- One entry is undone: the old bytes under the mask, and the line's full-empty bits (R441 step 2). -/
def State.undoEntry (s : State) (c : CoreId) (a : Nat) : State :=
  let pa := coreBase c + s.memNat (a + 0x18) 8
  let mask := s.memNat (a + 8) 8
  let runs := ((span 0 64).filter (fun i => mask / 2 ^ i % 2 = 1)).map (fun i => (pa + i, memRead s.mem (a + 0x20 + i) 1))
  let fe := s.memNat a 1
  ({ s with mem := writeRuns s.mem runs }.setFulls ((span 0 4).map (fun i => (granule pa + i, fe / 2 ^ i % 2 = 1)))).wake c [(pa, 64)]
/-- Mirrors of a restored line take it from the home (R441 step 4). -/
def State.undoMirrors (s : State) (c : CoreId) (pa : Nat) : List Nat → State
  | [] => s
  | i :: t =>
    (match s.mirrorEntry c i with
    | none => s
    | some (home, size, ms) =>
      let page := if size = 2 then 2 ^ 26 else 2 ^ 16
      if home ≤ pa && pa < home + page then s.syncMirrors (s.partOf c) i home pa 64 ms else s).undoMirrors c pa t
/-- The walk of one core's shed from its newest entry back (R441 step 2). -/
def State.undoShed : Nat → State → CoreId → Nat → List Nat → State
  | 0, s, _, _, _ => s
  | f + 1, s, c, n, tags =>
    let d := (s.core c).shed n
    if shedUsed d = 0 then s
    else
      let a := shedAddr c d ((shedTail d + 2 ^ 32 - 1) % 2 ^ 32)
      if !tags.contains (s.memNat a 8 / 2 ^ 40) then s
      else
        let pa := coreBase c + s.memNat (a + 0x18) 8
        let s := (s.undoEntry c a).modCore c (fun k => k.setShed n (d.1, setFld d.2 31 0 (shedTail d + 2 ^ 32 - 1)))
        State.undoShed f (if bitAt (s.core c).cfg.mirtab 0 then s.undoMirrors c pa (span 1 255) else s) c n tags

/-- The records of the snapshot are restored in its order (R441 step 3). -/
def State.restoreParts (s : State) (asid : Nat) (live : List CoreId) (gs : List (Launch × Nat × Gang)) (img : List Host.Cell)
    (at_ : Nat) : List (Nat × Nat) → State
  | [] => s
  | (i, j) :: t =>
    match live[i]?, gs[j]? with
    | some c, some (_, n, g) =>
      let len := (wordIn img (at_ + 0x18)).toNat
      let one := memPaste [] at_ 0 (memSlice img at_ len)
      let b : Place := { asid := asid, lslot := n, x0 := g.x0, y0 := g.y0, lns := savedLns one, core := c }
      (s.restoreRecord b one (s.parseRecord b one) false).restoreParts asid live gs img (at_ + len) t
    | _, _ => s.restoreParts asid live gs img at_ t

/-- The snapshot as it stands in its area. -/
def State.readSnapshot (s : State) (p : Nat) (l : LogSlot) (num : Nat) : Option (List Host.Cell × State) :=
  match s.context p l.snapAsid with
  | none => none
  | some k =>
    match s.lnCore p k.home with
    | none => none
    | some h =>
      match s.blocks (blockFuel l.snapsz) (homeCtx h l.snapAsid) (l.area num) 0 l.snapsz kRead 0 with
      | .ok bs s => (match s.getBlocks [] bs with | .ok img s => some (img, s) | .fault _ _ => none)
      | _ => none

/-- A core's tables of a context are emptied. -/
def Core.dropTables (k : Core) (asid : Nat) : Core :=
  { k with rings := k.rings.filter (fun r => r.2.asid != asid), credits := k.credits.filter (fun e => e.2.asid != asid),
           bcbs := k.bcbs.filter (fun b => b.2.asid != asid) }
def State.putCrews (s : State) (x : Partition) (k : Context) : List (Nat × (Nat × Crew)) → State
  | [] => s
  | (ln, y) :: t =>
    (match x.live[ln]? with
    | none => s
    | some c => s.writeCrew c k y.1 { y.2 with refs := [] }).putCrews x k t
def State.putChans (s : State) (x : Partition) : List (Nat × Channel) → State
  | [] => s
  | (ln, y) :: t =>
    (match x.live[ln]? with
    | none => s
    | some c => s.modCore c (fun k => k.setChan y)).putChans x t

/-- Steps 2 to 5 of R441 for a context that stands still. -/
def State.unpick (s : State) (p n num me : Nat) (x : Partition) (l : LogSlot) (m : Seam) : State :=
  let tags := (l.window num).map (·.n)
  let s := overCores s (fun s c => State.closeAll (s.core c).merges.length s c) x.live
  let s := overCores s (fun s c => State.undoShed (shedUsed ((s.core c).shed n)) s c n tags) x.live
  let gs := placedGangs m.launches
  let mine : Strand → Bool := fun st => st.asid = l.asid && st.lslot.isSome && st.uid != me
  let s := match s.readSnapshot p l num, s.context p l.asid with
    | some (img, s), some k =>
      let s := overCores s (fun s c => (s.dropSaved c mine (recOfLogged l.asid)).modCore c (fun k =>
        (x.slotsOf l.asid).foldl Core.dropCrew (k.dropTables l.asid))) x.live
      let s := ((s.putCrews x k m.crews).putChans x m.chans).restoreParts l.asid x.live gs img 0 m.parts
      s.modPart p (fun x => { x with launches := x.launches.map (fun (y : Launch) =>
        (m.launches.find? (fun (z : Launch) => z.order = y.order)).getD y) })
    | _, _ => s
  s.modLog p n (fun l =>
    { l with cur := num, seams := l.seams.takeWhile (fun (y : Seam) => y.n != num) ++ [m], frozen := true, busy := none })

/-- The room of a STOP slot is short on some core (R439). -/
def State.roomShort (s : State) (n : Nat) (x : Partition) (l : LogSlot) : Bool :=
  x.live.any (fun c => let d := (s.core c).shed n; l.short (shedSize d - shedUsed d))

/-- FORGET N: seams below N are dropped with their entries. -/
def State.forget (s : State) (p n num : Nat) (x : Partition) (l : LogSlot) : State :=
  let keep := l.seams.filter (fun y => (y.n + 2 ^ 24 - num) % 2 ^ 24 < 2 ^ 23)
  (s.modLog p n (fun l => { l with seams := keep })).dropHeads n (l.cur :: keep.map (·.n)) x.live

/-- MTSP to LOGCMD (R440). -/
def State.logcmd (s : State) (g : Guard) (d : Reg) : State :=
  s.mtspOp g d (fun c n st v commit s =>
    let w := v0 v
    let p := s.partOf c
    let i := fld w 57 56
    let num := fld w 23 0
    let op := fld w 63 60
    let done : Nat → State → State := fun code s => ((commit s).setLast p i code).complete c n st
    match s.part p with
    | none => done 1 s
    | some x =>
      match List.lookup i x.logs with
      | none => if 1 ≤ op && op ≤ 4 then done 1 s else (commit s).complete c n st
      | some l =>
        if op = 1 then
          (((commit s).setLast p i 0).askSeam p i (some ⟨c, n, st.uid⟩)).putStrand c n { st with run := .await .msg (waitFor .command) }
        else if op = 2 then
          match s.unpickRefused p i num st.uid (bitAt w 59), l.window num with
          | none, m :: _ =>
            if s.contextStill p x l.asid (some st.uid) then done 0 (s.unpick p i num st.uid x l m)
            else ((s.modLog p i (fun l => { l with busy := some st.uid })).stopContext x l.asid (some st.uid)).block c n st .msg
          | some code, _ =>
            if l.busy = some st.uid then done code ((s.modLog p i (fun l => { l with busy := none })).thaw p l.asid) else done code s
          | none, [] => done 2 s
        else if op = 3 then done 0 (s.forget p i num x l)
        else if op = 4 then
          if s.roomShort i x l then done 0 (s.modLog p i (fun l => { l with frozen := true }))
          else done 0 ((s.modLog p i (fun l => { l with frozen := false })).thaw p l.asid)
        else (commit s).complete c n st)
/-- LOGCMD; OP in the command word decides (log 6). -/
def execLogcmdSeam (o : OpD) (s : State) : Out := .next (s.logcmd o.g o.d)
def execLogcmdUnpick (o : OpD) (s : State) : Out := .next (s.logcmd o.g o.d)
def execLogcmdForget (o : OpD) (s : State) : Out := .next (s.logcmd o.g o.d)
def execLogcmdResume (o : OpD) (s : State) : Out := .next (s.logcmd o.g o.d)

/-! ### Stops and the debug module as the host reaches it (15 R444, R445) -/

/-- DEBUG_STOP. -/
def execDebugStop (o : EvCore) (s : State) : Out := .next (s.debugStop o.c)
/-- DEBUG_STOP_COMPLETE. -/
def execDebugStopComplete (o : EvCore) (s : State) : Out := .next (s.debugStopped o.c)
/-- DEBUG_RESUME. -/
def execDebugResume (o : EvCore) (s : State) : Out := .next (s.debugResume o.c)
/-- CONTROL_REGISTER_WRITE (07 R233): a doubleword of control space takes a value whole. -/
def execControlRegisterWrite (o : EvCtl) (s : State) : Out :=
  .next (s.ctlWrite o.c (o.off / 8 * 8) o.v.toNat (2 ^ 64 - 1) (quietWriter 0))

/-! ### Core dumps (15 R451, R452) -/

/-- A fault record's bytes (06 R188). -/
def FaultRec.bytes (f : FaultRec) (more : Nat) : List Byte :=
  leBytes 8 (f.source * 65536 + f.reason * 256 + f.kind) ++ leBytes 8 f.tsc ++ leBytes 8 (f.sid * 2 ^ 32 + f.ln) ++
    leBytes 8 f.pc.toNat ++ leBytes 8 f.addr.toNat ++ leBytes 8 f.info.toNat ++ leBytes 8 f.handle.toNat ++ leBytes 8 more

/-- The dump buffer's first slot with FULL = 0 and its size. -/
inductive DumpSlot where
  | slot (va : Word) (size : Nat) (s : State)
  | full (s : State)
  | wait
def State.dumpScan : Nat → State → XCtx → Word → Nat → DumpSlot
  | 0, s, _, _, _ => .full s
  | f + 1, s, x, va, size =>
    match s.blocks 2 x va 0 8 kRead 0 with
    | .wait _ => .wait
    | .fault _ s => .full s
    | .ok bs s =>
      match s.getBlocks [] bs with
      | .fault _ s => .full s
      | .ok img s => if bitAt (wordIn img 0) 63 then State.dumpScan f s x (va + wd size) size else .slot va size s
def State.dumpSlot (s : State) (x : XCtx) (va : Word) : DumpSlot :=
  match s.blocks 2 x va 0 16 kRead 0 with
  | .wait _ => .wait
  | .fault _ s => .full s
  | .ok bs s =>
    match s.getBlocks [] bs with
    | .fault _ s => .full s
    | .ok img s =>
      let size := (wordIn img 8).toNat
      if size = 0 || size % 65536 != 0 then .full s
      else State.dumpScan (fld (wordIn img 0) 31 0) s x (va + 0x10000) size

/-- The save records of dumped launches, core by core, until one does not fit: the image, its end, and TRUNC. -/
def State.dumpRecords (s : State) (asid size : Nat) (img : List Host.Cell) (at_ : Nat) : List (CoreId × Nat) → List Host.Cell × Nat × Bool
  | [] => (img, at_, false)
  | (c, n) :: t =>
    let set := (s.core c).saveSet (inSlot asid n) (recInSlot asid n)
    let r := s.recordImage c asid [wd (n * 65536 + asid), 0] set true
    if at_ + r.2 > size then (img, at_, true)
    else s.dumpRecords asid size (memPaste img 0 at_ r.1) (at_ + r.2) t

/-- The cores that hold something of a launch: its gangs' cores and those its strands and records stand on. -/
def State.dumpCores (s : State) (p : Nat) (x : Partition) (l : Launch) : List (CoreId × Nat) :=
  match l.slot with
  | none => []
  | some n => (x.live.filter (fun c =>
      l.gangs.any (fun g => (l.gangCores p g).contains c) || !((s.core c).strandsOf (inSlot l.asid n)).isEmpty ||
      (s.core c).records.any (fun r => recInSlot l.asid n r.2))).map (fun c => (c, n))
/-- Pairs in LN order. -/
def inLnOrder (live : List CoreId) (l : List (CoreId × Nat)) : List (CoreId × Nat) :=
  (live.map (fun c => l.filter (fun e => e.1 = c))).flatten

/-- Launches leave the dump queue and may end. -/
def State.undump (s : State) (p : Nat) (ls : List Launch) : State :=
  s.modPart p (fun x => { x with
    dumpQueue := x.dumpQueue.filter (fun i => ls.all (fun l => l.order != i)),
    launches := x.launches.map (fun y => if ls.any (fun l => l.order = y.order) then { y with dumping := false } else y) })

/-- The slot is written, FULL last. -/
def State.writeDump (s : State) (p : Nat) (x : Partition) (asid : Nat) (ls extra : List Launch) (ctx : XCtx) (va : Word) (size : Nat) :
    Option State :=
  let r := s.dumpRecords asid size [] 0x240 (inLnOrder x.live (ls.map (s.dumpCores p x)).flatten)
  let first := match ls with | [] => 0 | l :: _ => l.slot.getD 0
  let head := asid * 2 ^ 32 + first * 2 ^ 24 + ls.length + b01 r.2.2 * 2 ^ 62
  let faults := (ls.map (fun l => match l.fault with | none => leBytes 64 0 | some f => f.bytes l.more)).flatten
  let img := memWrite (memWrite (memWrite r.1 0 (leBytes 8 head)) 8 (leBytes 8 extra.length)) 0x40 (faults ++ leBytes (512 - faults.length) 0)
  match s.blocks (blockFuel r.2.1) ctx va 0 r.2.1 kWrite 0 with
  | .wait _ => none
  | .fault _ s => some (s.modPart p (fun x => { x with dumpSkips := x.dumpSkips + 1 }))
  | .ok bs s =>
    let s := s.putBlocks img (quietWriter asid) bs
    match s.blocks 2 ctx va 0 8 kWrite 0 with
    | .ok bs s => some (s.putBlocks (memWrite [] 0 (leBytes 8 (head + 2 ^ 63))) (quietWriter asid) bs)
    | _ => some s

/-- DUMP_WRITE (R452): the first launches of the dump queue with one context are dumped once they stand still. -/
def execDumpWrite (o : EvPart) (s : State) : Out :=
  .next (match s.part o.p, s.headCore o.p with
    | some x, some h =>
      (match x.dumpQueue.filterMap x.launch with
      | [] => s
      | l :: t =>
        let all := (l :: t).filter (fun y => y.asid = l.asid)
        let ls := all.take 8
        let extra := all.drop 8
        let still := ls.all (fun y => match y.slot with
          | none => true
          | some n => !s.coatMoving o.p n &&
              x.live.all (fun c => (s.core c).allStopped (inSlot y.asid n) (recInSlot y.asid n)))
        if !still then s
        else
          let ctx := homeCtx h (fld (s.core h).cfg.dumpctl 15 0)
          match s.dumpSlot ctx (s.core h).cfg.dumpva with
          | .wait => s
          | .full s => (s.modPart o.p (fun x => { x with dumpSkips := x.dumpSkips + 1 })).undump o.p all
          | .slot va size s1 =>
            match s1.writeDump o.p x l.asid ls extra ctx va size with
            | none => s
            | some s1 => s1.undump o.p all)
    | _, _ => s)

end Sys2Proof.Machine
end

