-- ==== Sys2Proof/Machine/Coats.lean ====
section
/-! DEFINITION. Turns of the barrels, breakpoints, and the journeys of coats: departure, admission, bounces, and the forwarding of a
retired core's messages (01 R34 to R37; 07 R208 to R211, R217 to R232; 15 R445, R446). -/
namespace Sys2Proof.Machine
open Sys2Proof

/-! ### Turns (07 R208, R210, R211) -/

/-- A strand's launch is frozen by its log slot (15 R439). -/
def State.frozenLog (s : State) (c : CoreId) (st : Strand) : Bool :=
  match s.logSlotOf (s.partOf c) st.asid with
  | none => false
  | some (_, l) => l.frozen && st.lslot.isSome

/-- The class of a slot's turn: 0 ISSUED, 1 WAIT-MEM, 2 WAIT-MSG, 3 VACANT (07 R210). An instruction that the turn leaves held by a Block
has not issued in it. -/
def State.turnClass (s : State) (c : CoreId) (k : Core) (n : Nat) : Nat :=
  let st := List.lookup n k.slots
  let held : Bool := match st with | some st => (match st.run with | .blocked _ => true | _ => false) | none => false
  if k.turned.contains n && !held then 0
  else match st with
    | none => if k.admitting.any (fun x => x.place = n) then 1 else 3
    | some st =>
      if k.dbg.stop then 3
      else match st.run with
        | .ready => if s.frozenLog c st then 3 else 1
        | .blocked .mem => 1
        | .blocked .msg => 2
        | .await .mem _ => 1
        | .await .msg _ => 2
        | .departing _ _ => 1
        | .arrived _ => 1
        | .stopped _ => 3
        | .faulted => 3
/-- A strand that would issue at its next turn (07 R211): one that holds no instruction back. A held one counts once its condition has let
it go on. -/
def State.wouldIssue (s : State) (c : CoreId) (k : Core) (st : Strand) : Bool :=
  !k.dbg.stop && st.trap.isNone && (match st.run with | .ready => !s.frozenLog c st | _ => false)

/-- The slot of each barrel that may issue in a core's cycle (07 R208). -/
def State.turnSlot (s : State) (c : CoreId) : Nat := s.coreCycle (fieldNo c) % 16
/-- The counters of one barrel's turn: its class and its bin of the ready histogram (07 R211, R240). -/
def State.barrelTurn (s : State) (c : CoreId) (k : Core) (b : Nat) : Core :=
  let ready := (k.slots.filter (fun e => e.1 / 16 = b && s.wouldIssue c k e.2)).length
  (k.count (4 * b + s.turnClass c k (16 * b + s.turnSlot c)) 1).count (8 + 17 * b + ready) 1
/-- One core cycle of a core: both barrels' turns are counted. -/
def State.coreTurn (s : State) (c : CoreId) (k : Core) : Core :=
  { s.barrelTurn c (s.barrelTurn c k 0) 1 with turned := [] }

/-- BARREL_TURN (07 R208, R210, R211; 15 R448): one core cycle of core o.c. -/
def execBarrelTurn (o : EvCore) (s : State) : Out := .next ((s.modCore o.c (s.coreTurn o.c)).perf o.c 0x01 1)

/-! ### Breakpoints (06 R191; 15 R446) -/

/-- The lowest-numbered breakpoint that matches a strand's next instruction. -/
def Core.breakpoint (k : Core) (st : Strand) : Option Nat :=
  (span 0 4).find? (fun i =>
    let b := k.dbg.bkpt.toList.getD i (0, 0)
    bitAt b.1 0 && fld b.1 55 1 = fld st.pc 55 1 && (bitAt b.2 16 || fld b.2 15 0 = st.asid))

/-- A strand is about to issue a fresh instruction. -/
def Strand.isReady (st : Strand) : Bool :=
  match st.run with
  | .ready => st.trap.isNone && st.hold.isNone
  | _ => false

/-- BREAK (15 R446): slot o.n of core o.c. -/
def execBreakPoint (o : EvCoreN) (s : State) : Out :=
  .next (match s.strandAt o.c o.n with
    | none => s
    | some st =>
      if !st.isReady || st.brkskip || (s.core o.c).dbg.stop then s
      else match (s.core o.c).breakpoint st with
        | none => s
        | some i => s.takeTrap o.c o.n st { kind := 3, pc := st.pc, info := #v[wd i, 0, 0, 0] })

/-! ### Departure (00 R15; 01 R34 to R37; 07 R217, R218, R222) -/

/-- COAT_DEPARTURE: the strand of slot o.n, whose Go is under way, leaves once it has drained and an entry is free. A WATCH trap that
the drain brought is taken first (06 R192). -/
def execCoatDeparture (o : EvCoreN) (s : State) : Out :=
  .next (match s.strandAt o.c o.n with
    | none => s
    | some st =>
      match st.run with
      | .departing dst op =>
        if !st.drained then s
        else match st.trap with
          | some t => s.takeTrap o.c o.n { st with run := .ready, trap := none } { t with pc := st.pc }
          | none =>
            match (s.core o.c).freeEntry with
            | none => s
            | some e =>
              let x : Coat := { st := st.coat, op := op, src := o.c, entry := e, dst := dst, fwd := 0, bounce := 0,
                                needDesc := false, needAnnex := st.ldep ≥ 3, place := 32, mark := .clean, keepPrev := false, vec := none }
              let d : Departure := { coat := x, landed := false, ready := 0, mark := .clean }
              let s := s.modCore o.c (fun k => { k with departures := tblSet k.departures e d })
              let s := (((s.send o.c dst false (s.tagOf o.c st.lslot) (.coat x)).count o.c 42 1).perf o.c 0x04 1).freeSlot o.c o.n
              { s with pkg := { s.pkg with lifetime := { s.pkg.lifetime with migrations := histAdd s.pkg.lifetime.migrations (hops o.c dst).log2 } } }
      | _ => s)

/-! ### Admission (07 R220 to R224) -/

/-- The place R223 gives an arriving coat; none bounces. With BOUNCE of 4 or more it takes the reserved entry, or is bounced again while that
is occupied (R226). A stopped core admits only to the cloakroom and the shed (15 R445). A coat that brings a vector context is bounced while
none is free (06 R207; log 55). -/
def Core.admits (k : Core) (x : Coat) : Option Nat :=
  let held := k.rescue.isSome || k.reserved.contains 34
  let waiting := held || !k.cloak.isEmpty || !k.spill.isEmpty || k.heldPlaces.any (fun r => r = 32 || r = 33)
  if x.vec.isSome && k.vctx.length ≥ 8 then none
  else if x.bounce ≥ 4 && held then none
  else if !k.dbg.stop && x.bounce ≥ 4 then some 34
  else if !k.dbg.stop && !waiting && k.pickSlot.isSome then k.pickSlot
  else if k.cloakUsed < k.cloakDepth then some 32
  else if k.spillUsed < k.spillLimit then some 33
  else none

/-- The cached descriptor of a crew, or the crew-table entry where the crew is HERE's own (07 R220). -/
def Core.descOf (k : Core) (cln lslot : Nat) : Option Crew :=
  if k.cfg.ln = cln && (List.lookup lslot k.crews).isSome then List.lookup lslot k.crews
  else match k.descs.find? (fun d => d.1 = cln && d.2.1 = lslot) with
    | none => none
    | some d => some d.2.2
/-- What a strand takes from its crew's descriptor (07 R220). -/
def Strand.takeDesc (st : Strand) (x : Crew) : Strand :=
  { st with asid := x.asid, task := wd x.taskv, gang := wd x.gangv, crew := setFld st.crew 13 8 x.size, fmta := x.fmta,
            fmtb := x.fmtb, sca := x.sca, scb := x.scb, stat := { st.stat with log := x.log } }

/-- A coat with everything read takes the place held for it, and the sender is told (07 R222, R223). -/
def State.takeIn (s : State) (c : CoreId) (x : Coat) : State :=
  let k := s.core c
  let st := match x.st.lslot with
    | none => x.st
    | some l => match k.descOf x.st.cln l with | none => x.st | some y => x.st.takeDesc y
  let prev := if x.keepPrev then st.det.prev else (s.core x.src).cfg.ln
  let x : Coat := { x with st := { st with det := { st.det with prev := prev }, fwd := x.fwd, bounce := x.bounce } }
  let s := s.modCore c (fun k => { k.unreserve x.place with admitting := k.admitting.filter (fun y => y.st.uid != x.st.uid) })
  let s := (s.count c 43 1).send c x.src true (s.tagOf c x.st.lslot) (.admitted x.entry)
  if x.place = 34 then State.refill 32 (s.modCore c (fun k => { k with rescue := some x })) c
  else if x.place = 32 then State.refill 32 (s.modCore c (fun k => { k with cloak := k.cloak ++ [x] })) c
  else if x.place = 33 then
    State.refill 32 (State.unspill 1 ((s.count c 46 1).shedPut c x) c) c
  else s.enterSlot c x.place x.strand

/-- The coat goes on through admission when nothing is left to read (07 R220, R221). -/
def State.tryAdmit (s : State) (c : CoreId) (x : Coat) : State :=
  if x.needDesc || x.needAnnex then
    s.modCore c (fun k => { k with admitting := k.admitting.map (fun y => if y.st.uid = x.st.uid then x else y) })
  else s.takeIn c x

/-- The router sends a coat back (07 R225). -/
def State.bounceCoat (s : State) (c : CoreId) (x : Coat) : State :=
  let x : Coat := { x with bounce := min 7 (x.bounce + 1) }
  let s := ((s.send c x.src true (s.tagOf c x.st.lslot) (.bounced x)).count c 44 1).perf c 0x05 1
  { s with pkg := { s.pkg with lifetime := { s.pkg.lifetime with bounces := histAdd s.pkg.lifetime.bounces x.bounce } } }

/-- The vector context that a bound strand brings takes a free context of the core (06 R207). -/
def State.bindVec (s : State) (c : CoreId) (x : Coat) : Coat × State :=
  match x.vec, (span 0 8).find? (fun i => (List.lookup i (s.core c).vctx).isNone) with
  | some v, some i =>
    ({ x with vec := none, st := { x.st with vctx := some i } }, s.setVctx c i { v with owner := x.st.uid })
  | _, _ => (x, s)

/-- COAT_ARRIVAL (07 R220 to R223). A crew-table entry of HERE's own is read with its errors (R239). -/
def execCoatArrival (o : EvMsg) (s : State) : Out :=
  s.onMsg o.i (fun m s =>
    match m.body with
    | .coat x =>
      if (s.core m.dst).cfg.fwdValid then s
      else
        let s := s.receive o.i m
        let c := m.dst
        let k := s.core c
        match k.admits x with
        | none => s.bounceCoat c x
        | some n =>
          let crew := s.crewCore c x.st
          let need : Bool := match x.st.lslot with
            | none => false
            | some l => (k.descOf x.st.cln l).isNone && crew.isSome
          let b := s.bindVec c { x with dst := c, place := n, needDesc := need }
          let x := b.1
          let s := match x.st.lslot with
            | some l => if k.cfg.ln = x.st.cln then (b.2.crewRead c l).2 else b.2
            | none => b.2
          let s := s.modCore c (fun k => { k with reserved := k.reserved ++ [n], admitting := k.admitting ++ [x] })
          let s := match need, crew, x.st.lslot with
            | true, some d, some l => s.send c d false (s.tagOf c x.st.lslot) (.descReq l x.st.uid)
            | _, _, _ => s
          let s := if x.needAnnex then s.send c x.src false (s.tagOf c x.st.lslot) (.annexReq x.entry x.st.uid) else s
          s.tryAdmit c x
    | _ => s)

/-- Waiting coats of a crew go on. -/
def State.describeAll (s : State) (c : CoreId) (cln lslot : Nat) : List Coat → State
  | [] => s
  | x :: t =>
    (if x.st.cln = cln && x.st.lslot = some lslot && x.needDesc then s.tryAdmit c { x with needDesc := false } else s).describeAll c cln
      lslot t
/-- CREW_DESCRIPTOR_REPLY (07 R220): 32 descriptors are cached. -/
def execCrewDescriptorReply (o : EvMsg) (s : State) : Out :=
  s.onMsg o.i (fun m s =>
    match m.body with
    | .descReply l cln crew =>
      let s := (s.receive o.i m).modCore m.dst (fun k =>
        match crew with
        | none => k
        | some x =>
          let rest := k.descs.filter (fun d => !(d.1 = cln && d.2.1 = l))
          { k with descs := (if rest.length ≥ 32 then rest.drop 1 else rest) ++ [(cln, l, x)] })
      s.describeAll m.dst cln l (s.core m.dst).admitting
    | _ => s)

/-- ANNEX_REPLY (07 R221). -/
def execAnnexReply (o : EvMsg) (s : State) : Out :=
  s.onMsg o.i (fun m s =>
    match m.body with
    | .annexReply uid =>
      let s := s.receive o.i m
      (match (s.core m.dst).admitting.find? (fun x => x.st.uid = uid) with
      | none => s
      | some x => s.tryAdmit m.dst { x with needAnnex := false })
    | _ => s)

def State.dropEntry (s : State) (c : CoreId) (e : Nat) : State :=
  s.modCore c (fun k => { k with departures := k.departures.filter (fun d => d.1 != e) })
/-- ADMISSION_ACK (07 R222). -/
def execAdmissionAck (o : EvMsg) (s : State) : Out :=
  s.onMsg o.i (fun m s =>
    match m.body with
    | .admitted e => (s.receive o.i m).dropEntry m.dst e
    | _ => s)

/-! ### Bounces (07 R225, R226, R232) -/

/-- BOUNCE_LANDING: the coat lands in its entry; one refused after 8 forwards ends its launch (07 R232). -/
def execBounceLanding (o : EvMsg) (s : State) : Out :=
  s.onMsg o.i (fun m s =>
    match m.body with
    | .bounced x =>
      let s := (s.receive o.i m).count m.dst 45 1
      if x.fwd ≥ 8 then
        let pa := match x.op with | none => coreBase x.dst | some r => r.pa
        (s.dropEntry m.dst x.entry).reportFault m.dst x.st.asid x.st.lslot 0 x.st.sid x.st.pc 0 (fAccess (wd pa) 8)
      else
        let mark := match List.lookup x.entry (s.core m.dst).departures with | none => .clean | some d => d.mark
        let d : Departure := { coat := x, landed := true, ready := s.cycle + min 8192 (64 * 2 ^ (x.bounce - 1)), mark := mark }
        s.modCore m.dst (fun k => { k with departures := tblSet k.departures x.entry d })
    | _ => s)

/-- BOUNCE_BACKOFF_EXPIRY: entry o.n of core o.c sends its coat again. -/
def execBounceBackoffExpiry (o : EvCoreN) (s : State) : Out :=
  .next (match List.lookup o.n (s.core o.c).departures with
    | none => s
    | some d =>
      if d.landed && d.ready ≤ s.cycle && !d.coat.st.isStopped then
        let x := d.coat
        (s.modCore o.c (fun k => { k with departures := tblSet k.departures o.n { d with landed := false } })).send o.c x.dst false
          (s.tagOf o.c x.st.lslot) (.coat x)
      else s)

/-! ### Retired cores (07 R232) -/

/-- A location of the retired core at its heir: the same local offset. -/
def rebasePa (src heir : CoreId) (pa : Nat) : Nat := if !isHost pa && homeOf pa = src then coreBase heir + offOf pa else pa
def MemReq.rebase (src heir : CoreId) (r : MemReq) : MemReq := { r with pa := rebasePa src heir r.pa }
/-- The message as it goes on to the heir. A coat's destination is then the heir, so one that the heir bounces is sent again straight to the
heir: R225's "same destination through the same routers" leaves open whether the retired core is passed again (DESIGN CHOICE, log 56). -/
def Body.rebase (src heir : CoreId) : Body → Body
  | .coat x => .coat { x with dst := heir, fwd := min 255 (x.fwd + 1), op := x.op.map (MemReq.rebase src heir) }
  | .request ref r => .request ref (r.rebase src heir)
  | .post ref p leaf asid log l => .post ref { p with pa := rebasePa src heir p.pa } leaf asid log l
  | .chunk i og pa data asid log bcb fill leaf => .chunk i og (rebasePa src heir pa) data asid log bcb fill leaf
  | b => b

def Body.isRequest : Body → Bool
  | .coat _ => true
  | .request _ _ => true
  | _ => false

/-- The answer to a forward-class message that a router refuses (07 R232); other messages end here. -/
def State.refuse (s : State) (m : Msg) : State :=
  let back : CoreId → Body → State := fun d b => s.send m.dst d true m.tag b
  match m.body with
  | .coat x => s.bounceCoat m.dst { x with fwd := max 8 x.fwd }
  | .request ref r => back ref.core (.reply ref r .refused)
  | .post ref p _ _ _ _ => back ref.core (.postNak ref p.id 1)
  | .chunk i og pa _ _ _ _ _ _ => back og (.chunkNak i (some pa))
  | .boardQuery ref _ k => back ref.core (.boardReply ref k 6 0 (wd (6 * 2 ^ 60)))
  | .append ref _ _ cidx _ => back ref.core (.appendReply ref cidx false false)
  | .creditReq _ _ cidx => back m.src (.creditGrant cidx 0 0 true)
  | .creditReturn (some ref) _ _ cidx n => back ref.core (.creditReturned ref cidx n)
  | .steal ref _ _ => back ref.core (.stealReply ref none)
  | _ => s

/-- COAT_FORWARD (07 R232): a message for a retired core goes on to the heir, at most 8 times. -/
def execCoatForward (o : EvMsg) (s : State) : Out :=
  s.onMsg o.i (fun m s =>
    let k := s.core m.dst
    if m.isReturn || !k.cfg.fwdValid then s
    else
      let s := s.receive o.i m
      let gone : Bool := match m.body with
        | .coat x => x.fwd + 1 ≥ 8
        | _ => m.fwd % 16 ≥ 8
      match gone, s.lnCore (s.partOf m.dst) k.cfg.heir with
      | false, some d =>
        let i := s.nextId
        let s := s.send m.dst d false m.tag (m.body.rebase m.dst d)
        let s := { s with net := s.net.map (fun y => if y.id = i then { y with fwd := m.fwd + 1 } else y) }
        if m.body.isRequest then s.count m.dst 47 1 else s
      | _, _ => s.refuse m)

end Sys2Proof.Machine
end

