-- ==== Sys2Proof/Machine/ControlFlow.lean ====
section
/-! DEFINITION. Branches, calls, hardware loops, SPAWN, EXIT, JOIN, YIELD, TRAP and the pins (05 R159 to R169, R180 to R182). -/
namespace Sys2Proof.Machine
open Sys2Proof

/-- A condition of BR (05 R159). -/
def condHolds (st : Strand) (c : Cond) : Bool :=
  match c with
  | .alw => true
  | .p0 => st.pred 0 | .p1 => st.pred 1 | .p2 => st.pred 2 | .p3 => st.pred 3
  | .np0 => !st.pred 0 | .np1 => !st.pred 1 | .np3 => !st.pred 3

/-- The target of a B8 member (05 R159). -/
def Strand.target (st : Strand) (disp : Int) : Word := st.next + Word.ofExact (2 * disp)

/-- The strand continues at a target. -/
def Strand.jump (st : Strand) (t : Word) : Strand := Strand.goTo { st with run := .ready, deadline := none } t

/-- BR (05 R159, R163). -/
def execBr (o : OpBr) (s : State) : Out :=
  .next (s.issue o.g none [] [] none (fun c n st _ _ s =>
    if condHolds st o.cond then s.putStrand c n (st.jump (st.target o.disp)) else s.complete c n st))

/-- A call writes its link and continues at the target (05 R160). -/
def State.linkJump (s : State) (c : CoreId) (n : Nat) (st : Strand) (d : Reg) (t : Word) : State :=
  if st.isPort d then (s.portPush c n st st.next).putStrand c n (st.jump t)
  else s.putStrand c n ((st.setG d st.next).jump t)

/-- CALL (05 R160). -/
def execCall (o : OpCall) (s : State) : Out :=
  .next (s.issue o.g none [] [] (some o.c) (fun c n st _ commit s =>
    (commit s).linkJump c n st o.c (st.target o.disp)))

/-- JR (05 R160). -/
def execJr (o : OpA) (s : State) : Out :=
  .next (s.issue o.g none [o.a] [o.a] none (fun c n st v commit s =>
    if bitAt (v0 v) 0 then s.takeFault c n st (fAlign (v0 v) 2)
    else (commit s).putStrand c n (st.jump (v0 v))))

/-- JALR (05 R160): the target is the old g[a]. -/
def execJalr (o : OpDA) (s : State) : Out :=
  .next (s.issue o.g none [o.a] [o.a] (some o.d) (fun c n st v commit s =>
    if bitAt (v0 v) 0 then s.takeFault c n st (fAlign (v0 v) 2)
    else (commit s).linkJump c n st o.d (v0 v)))

/-- LOOP (05 R162): o.n is the body length in halfwords. -/
def execLoop (o : OpDN) (s : State) : Out :=
  .next (s.issue o.g none [o.d] [o.d] none (fun c n st v commit s =>
    let le := st.next + wd (2 * o.n)
    if v0 v = 0 then (commit s).putStrand c n (st.jump le)
    else if st.ldep ≥ 4 then s.takeFault c n st (fIllegal 0x0C st.pc (chainInfo st.chain))
    else
      let st' : Strand := { st with loops := st.loops.setIfInBounds st.ldep { ls := st.next, le := le, lc := v0 v },
                                    ldep := st.ldep + 1 }
      (commit s).putStrand c n (st'.jump st.next)))

/-- BRKL (05 R164): its own next PC runs no loop-end step (05 R163). -/
def execBrkl (o : Op0) (s : State) : Out :=
  .next (s.issue o.g none [] [] none (fun c n st _ _ s =>
    if st.ldep = 0 then s.complete c n st
    else
      let j := st.ldep - 1
      let st' : Strand := { st with ldep := j, pc := (st.loops.getD j Loop.reset).le, run := .ready, deadline := none }
      s.putStrand c n st'))

/-! ### SPAWN, EXIT, JOIN -/

/-- A register that SPAWN copies is LOAD-pending (05 R166 step 1). -/
def spawnPending (st : Strand) (heavy : Bool) : Bool :=
  (List.finRange 16).any (fun r => (heavy || r.val < 8) && st.isLoad r)

/-- Steps 3 and 4 of SPAWN: the place is held from the turn on that finds it, and the child waits for the parent's earlier events. -/
def State.spawnRoom (s : State) (c : CoreId) (n : Nat) (st : Strand) (far : Bool) (k : Nat → Strand → State → State) : State :=
  match st.nest.orElse (fun _ => (s.core c).room) with
  | none => s.block c n st .mem
  | some place =>
    let st : Strand := { st with nest := some place }
    s.released c n st far (fun s => k place st (s.putStrand c n st))
/-- SPAWN (05 R166). -/
def execSpawn (o : OpSpawn) (s : State) : Out :=
  .next (s.issue o.g none [] [] none (fun c n st _ _ s =>
    let t := st.target o.disp
    if spawnPending st o.heavy then s.block c n st .mem
    else if st.jw = 0 then s.spawnRoom c n st false (fun place st s => s.spawnDone c n st t o.heavy place)
    else
      s.joinWord c n st st.jw kReduce (memberInfo 0 22 0) (fun pa leaf s =>
        s.spawnRoom c n st (isHost pa || (homeOf pa).w != c.w) (fun place st s =>
          s.addWord c n st (joinReq pa st.jw leaf (.add 1) (.spawn t o.heavy place))))))

/-- EXIT (05 R168; 06 R200; 08 R248). -/
def execExit (o : Op0) (s : State) : Out :=
  .next (s.issue o.g none [] [] none (fun c n st _ _ s =>
    if (s.core c).vectorOpen st.uid then s.block c n st .mem
    else s.released c n st true (fun s =>
      let jw := s.exitWord c st
      if jw = 0 then s.exitDone c n st
      else s.joinWord c n st jw kReduce (memberInfo 0 25 1) (fun pa leaf s =>
        s.addWord c n st (joinReq pa jw leaf (.add (wd (2 ^ 64 - 1))) .exit)))))

/-- JOIN (05 R169). -/
def execJoin (o : Op0) (s : State) : Out :=
  .next (s.issue o.g none [] [] none (fun c n st _ _ s =>
    if st.jw = 0 then s.complete c n st
    else if st.lds.any (fun l => l.aq) then s.block c n st .mem
    else s.joinWord c n st st.jw kRead (memberInfo 0 25 2) (fun pa leaf s =>
      s.perform c n st (joinReq pa st.jw leaf (.wait .zero 8 0) .join))))

/-! ### Other S members -/

/-- NOP (05 R180). -/
def execNop (o : Op0) (s : State) : Out :=
  .next (s.issue o.g none [] [] none (fun c n st _ _ s => s.complete c n st))

/-- The partner takes the slot; the error marks of its entry are dealt with as for any coat that leaves the cloakroom (07 R224, R239). -/
def State.seat (s : State) (c : CoreId) (n : Nat) (x : Coat) : State :=
  match x.mark with
  | .double => State.refill 32 ((s.coatLost c x 1 (coreBase c)).dropStrand c n) c
  | m => (s.corrected c m).enterSlot c n x.strand
/-- YIELD (05 R180): the partner is the coat that R224 would seat next. A handler keeps its slot (07 R209; log 23). Vector instructions
complete before the strand leaves its slot (08 R248). -/
def execYield (o : Op0) (s : State) : Out :=
  .next (s.issue o.g none [] [] none (fun c n st _ _ s =>
    match st.handlerOf, (s.core c).nextCoat with
    | none, some (x, k) =>
      let me := waitingCoat c st.finish
      if (s.core c).vectorOpen st.uid then s.block c n st .mem
      else if k.cloakUsed < k.cloakDepth then ((s.setCore c { k with cloak := k.cloak ++ [me] }).dropStrand c n).seat c n x
      else if k.spillUsed < k.spillLimit then (((s.setCore c k).shedPut c me).dropStrand c n).seat c n x
      else s.complete c n st
    | _, _ => s.complete c n st))

/-- TRAP n (05 R181; 06 R191, R194): the frame's PC is the next instruction. -/
def execTrap (o : OpTrap) (s : State) : Out :=
  .next (s.issue o.g none [] [] none (fun c n st _ _ s =>
    let a := st.advance
    s.takeTrap c n { a with pc := st.pc } { kind := 1, pc := a.pc, info := #v[wd o.code, 0, 0, 0] }))

/-- PIN and UNPIN (05 R182). -/
def State.pinOp (s : State) (g : Guard) (b : Bool) : State :=
  s.issue g none [] [] none (fun c n st _ _ s =>
    let st' : Strand := { st with stat := { st.stat with pinhold := b } }
    s.complete c n st')
def execPin (o : Op0) (s : State) : Out := .next (s.pinOp o.g true)
def execUnpin (o : Op0) (s : State) : Out := .next (s.pinOp o.g false)

end Sys2Proof.Machine
end

