-- ==== Sys2Proof/Machine/Replies.lean ====
section
/-! DEFINITION. Messages of strands: requests and posted operations at their homes, and the replies, acknowledgements and refusals
that strands receive (05 R146 to R157, R166 to R176; 06 R192, R193; 07 R215, R216, R232; 13 R398 to R401; 15 R445; 16 R454, R458). -/
namespace Sys2Proof.Machine
open Sys2Proof

/-! ### At the home -/

/-- A message of one kind reaches a core that is not retired; it leaves the network (07 R232; 12 R375). -/
def State.onArrival (s : State) (i : Nat) (kind : Body → Bool) (k : Msg → State → State) : Out :=
  s.onMsg i (fun m s => if !kind m.body || (s.core m.dst).cfg.fwdValid then s else k m (s.receive i m))

/-- A request to the engines, rings or boards of a core: a stopped core takes none (15 R445). -/
def State.onAsk (s : State) (i : Nat) (kind : Body → Bool) (k : Msg → State → State) : Out :=
  s.onMsg i (fun m s =>
    if !kind m.body || (s.core m.dst).cfg.fwdValid || (s.core m.dst).dbg.stop then s else k m (s.receive i m))

/-- The router of the destination refuses an access: 3 no path, 2 the far side, 1 its own router (06 R197; 14 R415; 16 R454, R458). -/
def State.turnedAway (s : State) (m : Msg) (pa : Nat) : Option Nat :=
  let k := s.core m.dst
  if m.src.w != m.dst.w then
    if s.waferDown m.src.w m.dst.w then some 3 else if s.farRefuses m.src pa then some 2 else none
  else if !k.live || !k.owned || s.partOf m.src != s.partOf m.dst then some 1 else none

/-- A refused request is resent after 256 core cycles (05 R150; 15 R445). -/
def State.sendBack (s : State) (m : Msg) (ref : Ref) (r : MemReq) (full : Bool) : State :=
  s.send m.dst ref.core true m.tag (.resend ref r m.dst (s.cycle + 256) full)

/-- A strand's request at its home, or a replay entry sent for another strand (06 R199): it is refused, served or parked (05 R150, R155, R170; 07 R232; 15 R445). -/
def State.requestAt (s : State) (m : Msg) (ref : Ref) (r : MemReq) : State :=
  let h := m.dst
  match s.turnedAway m r.pa with
  | some _ => s.answer h ref r .refused m.tag
  | none =>
    if (s.core h).dbg.stop then (if r.cont.isReplay then s.answer h ref r .refused m.tag else s.sendBack m ref r false)
    else match s.replayOf ref.core r with
    | some (st, op, n, d) =>
      (s.redEnter h (st.redIn (s.partOf ref.core) r.pa r.leaf op n d)).answer h ref r (.value 0 true none 0) m.tag
    | none => match s.serve h r (s.replayWriter ref r) with
      | some (a, s) => s.answer h ref r a m.tag
      | none =>
        if r.limit.isSome && s.isDue ((s.strandOf ref).bind (·.deadline)) then s.answer h ref r (.withdrawn (wd (s.memNat r.pa r.size))) m.tag
        else if ((s.core h).waiters.filter (fun w => !w.isLocal)).length ≥ 64 then s.sendBack m ref r true
        else
          let w : Waiter := { ref := ref, req := r, isLocal := false, msg := m.id, tag := m.tag }
          s.modCore h (fun k => { k with waiters := k.waiters ++ [w] })

/-- Reads of a strand, of a crew descriptor and of a loop annex. -/
def isReadReq : Body → Bool
  | .request _ r => (match r.op with | .load _ .none => true | .load _ .test => true | .get _ => true | _ => false)
  | .descReq _ _ => true
  | .annexReq _ _ => true
  | _ => false
/-- Atomics, and the acknowledged adds of SPAWN and EXIT. -/
def isAmoReq : Body → Bool
  | .request _ r => (match r.op with | .amo _ _ _ _ => true | .add _ => true | _ => false)
  | _ => false
/-- Full-empty requests and waits on words, which may park; ST.EF among them. -/
def isWaitReq : Body → Bool
  | .request ref r => !isReadReq (.request ref r) && !isAmoReq (.request ref r)
  | _ => false

/-- REMOTE_READ_REQUEST (07 R220, R221; 13 R398). -/
def execRemoteReadRequest (o : EvMsg) (s : State) : Out :=
  s.onArrival o.i isReadReq (fun m s =>
    match m.body with
    | .request ref r => s.requestAt m ref r
    | .descReq l uid =>
      let cln := match (s.core m.src).admitting.find? (fun x => x.st.uid = uid) with | none => 0 | some x => x.st.cln
      let x := s.crewRead m.dst l
      if x.1.isNone && (List.lookup l (s.core m.dst).crews).isSome then x.2
      else x.2.send m.dst m.src true m.tag (.descReply l cln x.1)
    | .annexReq e uid =>
      (match List.lookup e (s.core m.dst).departures with
      | some d =>
        (match d.mark with
        | .double => s.coatLost m.dst d.coat 1 (coreBase m.dst)
        | mk => ((s.corrected m.dst mk).modCore m.dst (fun k =>
            { k with departures := tblSet k.departures e { d with mark := .clean } })).send m.dst m.src true m.tag (.annexReply uid))
      | none => s.send m.dst m.src true m.tag (.annexReply uid))
    | _ => s)
/-- AMO_REQUEST (05 R155, R166, R168). -/
def execAmoRequest (o : EvMsg) (s : State) : Out :=
  s.onArrival o.i isAmoReq (fun m s =>
    match m.body with
    | .request ref r => s.requestAt m ref r
    | _ => s)
/-- WAIT_REQUEST (05 R149, R150, R169, R170). -/
def execWaitRequest (o : EvMsg) (s : State) : Out :=
  s.onArrival o.i isWaitReq (fun m s =>
    match m.body with
    | .request ref r => s.requestAt m ref r
    | _ => s)

/-! ### Resends (05 R150; 15 R445) -/

/-- The strand still waits for its request. -/
def State.stillAsks (s : State) (ref : Ref) (r : MemReq) : Bool :=
  match r.cont with
  | .lds id _ => ((s.core ref.core).strandsOf (fun st => st.uid = ref.uid && st.lds.any (fun l => l.id = id))).length != 0
  | _ =>
    match s.strandOf ref with
    | none => false
    | some st => (match st.run with | .await _ q => q.cont = r.cont | _ => false)
def State.resendAt (s : State) (i : Nat) (full : Bool) : Out :=
  s.onMsg i (fun m s =>
    match m.body with
    | .resend ref r dst ready f =>
      if f != full || s.cycle < ready then s
      else
        let s := s.receive i m
        if s.stillAsks ref r then s.send ref.core dst false m.tag (.request ref r) else s
    | _ => s)
/-- WAITER_RESEND_TIMER: the waiter table was full. -/
def execWaiterResendTimer (o : EvMsg) (s : State) : Out := s.resendAt o.i true
/-- REQUEST_RESEND_TIMER: a stopped core refused. -/
def execRequestResendTimer (o : EvMsg) (s : State) : Out := s.resendAt o.i false

/-! ### Withdrawals and limits (05 R171, R172, R183) -/

/-- WAIT_WITHDRAWAL: a request still parked is withdrawn with the word's last value; one already served has been answered. -/
def execWaitWithdrawal (o : EvMsg) (s : State) : Out :=
  s.onArrival o.i (fun b => match b with | .withdraw _ _ => true | _ => false) (fun m s =>
    match m.body with
    | .withdraw ref _ =>
      (match (s.core m.dst).waiters.find? (fun w => !w.isLocal && w.holds ref.uid) with
      | none => s
      | some w =>
        let s := s.modCore m.dst (fun k => { k with waiters := k.waiters.filter (fun y => y != w) })
        s.answer m.dst w.ref w.req (.withdrawn (wd (s.memNat w.req.pa w.req.size))) w.tag)
    | _ => s)

/-- A resend that its requester gives up. -/
def State.dropResend (s : State) (ref : Ref) : State :=
  match indexOf (fun (m : Msg) => match m.body with | .resend r q _ _ _ => r.uid = ref.uid && (match q.cont with | .lds _ _ => false | _ => true) | _ => false) s.net 0 with
  | none => s
  | some i => match s.net[i]? with | none => s | some m => s.receive i m

/-- BLOCK_LIMIT_EXPIRY (05 R171, R172): the limit of slot o.n of core o.c has run out. A local wait expires at once; a parked one is
withdrawn; an instruction that tries its condition at each turn tries it now. -/
def execBlockLimitExpiry (o : EvCoreN) (s : State) : Out :=
  .next (match s.strandAt o.c o.n with
    | none => s
    | some st =>
      if !s.isDue st.deadline || (s.core o.c).dbg.stop then s
      else match st.run with
        | .await cls r =>
          let h := homeOf r.pa
          let last := wd (s.memNat r.pa r.size)
          let mine : Waiter → Bool := fun w => w.holds st.uid
          if isHost r.pa then s.waitExpired o.c o.n st r last
          else if h = o.c then
            if (s.core o.c).waiters.any mine then
              (s.modCore o.c (fun k => { k with waiters := k.waiters.filter (fun w => !mine w) })).waitExpired o.c o.n st r last
            else s
          else if (s.core h).waiters.any mine then s.withdraw o.c o.n st
          else if s.net.any (fun m => match m.body with | .resend q _ _ _ _ => q.uid = st.uid | _ => false) then
            (s.dropResend ⟨o.c, o.n, st.uid⟩).waitExpired o.c o.n { st with run := .blocked cls } r last
          else s
        | _ => s)

/-! ### Replies (05 R148, R153, R155; 13 R399, R400) -/

/-- The home PA of a read of a MIRROR page that a copy served. -/
def State.homePa (s : State) (c : CoreId) (r : MemReq) : Nat :=
  match s.mirrorsOf c r.leaf with
  | none => r.pa
  | some (_, size, _) => leafPage r.leaf size + r.va.toNat % mirrorPage size
/-- The strand of an identity in a slot of a core, or a change of it wherever it waits there. -/
def Core.standing (k : Core) (uid : Nat) : Option (Nat × Strand) := k.slots.find? (fun e => e.2.uid = uid)
def Core.mapUid (k : Core) (uid : Nat) (f : Strand → Strand) : Core :=
  let g : Strand → Strand := fun st => if st.uid = uid then f st else st
  { k with slots := k.slots.map (fun e => (e.1, g e.2)), cloak := k.cloak.map (fun x => { x with st := g x.st }),
           spill := k.spill.map (fun x => { x with st := g x.st }), rescue := k.rescue.map (fun x => { x with st := g x.st }) }

/-- The register of a landed LDS (05 R153). -/
def Strand.ldsLand (st : Strand) (l : LdsRec) (v : Word) : Strand :=
  let st : Strand := { st with lds := st.lds.filter (fun x => x.id != l.id) }
  match st.pending l.d with
  | .load => st.setG l.d (extend true l.size v)
  | _ => st

/-- An LDS that failed faults with its own PC; a strand that waits in the cloakroom ends there. -/
def State.ldsFault (s : State) (c : CoreId) (uid : Nat) (l : LdsRec) (f : FaultInfo) : State :=
  match (s.core c).standing uid with
  | some (n, st) => s.takeFaultAt c n { st with lds := st.lds.filter (fun x => x.id != l.id) } l.pc 0 f
  | none =>
    match (s.core c).strandsOf (fun st => st.uid = uid) with
    | [] => s
    | st :: _ => (s.modCore c (fun k => { k with cloak := k.cloak.filter (fun x => x.st.uid != uid),
                                                 spill := k.spill.filter (fun x => x.st.uid != uid) })).reportFault c st.asid st.lslot 0
                   st.sid l.pc 0 f

/-- LDS_REPLY (05 R153). -/
def execLdsReply (o : EvMsg) (s : State) : Out :=
  s.onMsg o.i (fun m s =>
    match m.body with
    | .reply ref r a =>
      (match r.cont with
      | .lds id _ =>
        let s := s.receive o.i m
        let c := ref.core
        (match (s.core c).strandsOf (fun st => st.uid = ref.uid) with
        | [] => s
        | st :: _ =>
          match st.lds.find? (fun l => l.id = id) with
          | none => s
          | some l =>
            match a with
            | .value v _ _ q =>
              if staleCopy st r q then
                let r : MemReq := { r with pa := s.homePa c r, aq := true }
                s.send c (homeOf r.pa) false m.tag (.request ref r)
              else s.modCore c (fun k => k.mapUid ref.uid (fun st => (st.raiseFloor r q).ldsLand l v))
            | .uncorrectable g => s.ldsFault c ref.uid l (fBadRead g)
            | .withdrawn _ => s
            | .bytes _ _ => s
            | .refused => s.ldsFault c ref.uid l (accessFault r))
      | _ => s)
    | _ => s)

/-- The answer of a home, at a strand that waits for it. -/
def State.replied (s : State) (c : CoreId) (n : Nat) (st : Strand) (cls : WaitClass) (r : MemReq) (a : Answer) : State :=
  match a with
  | .value v flag w q =>
    if staleCopy st r q then s.perform c n st { r with pa := s.homePa c r, aq := true }
    else
      let st := st.raiseFloor r q
      match r.cont with
      | .spawn _ _ _ => s.addDone c n (st.watched st.pc w) r
      | .exit => s.addDone c n (st.watched st.pc w) r
      | .block =>
        s.putStrand c n { st with run := .blocked .mem, bulk := st.bulk.map (fun b => { b with pos := b.pos + r.size }) }
      | .reinj f i => s.reinjDone c n st f i none
      | .replay f i => s.replayDone c n st f i none
      | _ => s.valueDone c n st r v flag w
  | .bytes l q =>
    if staleCopy st r q then
      s.sendRequest c n st (homeOf (s.homePa c r)) cls { r with pa := s.homePa c r, aq := true }
    else
      let st := st.raiseFloor r q
      s.putStrand c n (st.took l)
  | .uncorrectable g => s.takeFault c n st (fBadRead g)
  | .refused =>
    (match r.cont with
     | .reinj f i => s.reinjDone c n st f i (some (s.refusedWhy c r))
     | .replay f i => s.replayDone c n st f i (some (s.refusedWhy c r))
     | _ => s.takeFault c n st (accessFault r))
  | .withdrawn v =>
    if s.isDue st.deadline then s.waitExpired c n st r v
    else s.putStrand c n { st with run := .blocked cls, deadline := none }

/-- The answer of a proxy (06 R205, R206): 0 and 1 are p3; 2 is FEATURE-ABSENT after `v` hops. -/
def State.proxied (s : State) (c : CoreId) (n : Nat) (st : Strand) (k : Cont) (v : Word) (code : Nat) : State :=
  match k with
  | .proxy d bit =>
    if code = 2 then s.takeFault c n st (fFeature bit v.toNat)
    else if code = 1 then s.giveHandle c n st d v
    else s.writeBack c n (st.setP3 false) (some d) v
  | .proxyProg => if code = 2 then s.takeFault c n st (fFeature 2 v.toNat) else s.complete c n (st.setP3 (code = 1))
  | .proxyQuery d => if code = 2 then s.takeFault c n st (fFeature 2 v.toNat) else s.writeBack c n st (some d) v
  | _ => s

/-- A reply for a strand that waits, with what it waits for. -/
def State.forAwait (s : State) (ref : Ref) (k : Strand → WaitClass → MemReq → State → State) : State :=
  match s.strandOf ref with
  | none => s
  | some st =>
    match st.run with
    | .await cls q => k st cls q s
    | _ => s

/-- REMOTE_REPLY (05 R155, R166, R168, R170, R172; 06 R205; 09 R290; 10 R341). A reply for a strand that is gone is dropped. -/
def execRemoteReply (o : EvMsg) (s : State) : Out :=
  s.onMsg o.i (fun m s =>
    match m.body with
    | .reply ref r a =>
      (match r.cont with
      | .lds _ _ => s
      | _ => (s.receive o.i m).forAwait ref (fun st cls q s => if q.cont = r.cont then s.replied ref.core ref.slot st cls r a else s))
    | .enqueueReply ref h =>
      (s.receive o.i m).forAwait ref (fun st _ q s =>
        match q.cont with
        | .launch d =>
          if hKind h = 3 then s.giveBad ref.core ref.slot st d (fld h 7 0) else s.giveHandle ref.core ref.slot st d h
        | _ => s)
    | .proxyReply ref v code =>
      (s.receive o.i m).forAwait ref (fun st _ q s => s.proxied ref.core ref.slot st q.cont v code)
    | .creditReturned ref i n =>
      (s.receive o.i m).forAwait ref (fun st _ q s =>
        match q.cont with
        | .rcred d _ => (s.dropCredit ref.core i).writeBack ref.core ref.slot st (some d) (wd n)
        | _ => s)
    | _ => s)

/-! ### Posted operations (05 R146, R157, R178; 06 R192, R193; 07 R215) -/

def isPostedStore : Body → Bool
  | .post _ p _ _ _ _ => (match p.op with | .red _ => false | _ => true)
  | _ => false
def isPostedRed : Body → Bool
  | .post _ p _ _ _ _ => (match p.op with | .red _ => true | _ => false)
  | _ => false
/-- WHY of a refused post: the router's refusal, or 1 where the core is stopped (15 R445). -/
def State.postWhy (s : State) (m : Msg) (pa : Nat) : Option Nat :=
  match s.turnedAway m pa with
  | some w => some w
  | none => if (s.core m.dst).dbg.stop then some 1 else none

/-- POSTED_WRITE_ARRIVAL (07 R215): the store is one event of the port. -/
def execPostedWriteArrival (o : EvMsg) (s : State) : Out :=
  s.onArrival o.i isPostedStore (fun m s =>
    match m.body with
    | .post ref p leaf asid log _ =>
      (match s.postWhy m p.pa with
      | some why => s.send m.dst ref.core true m.tag (.postNak ref p.id why)
      | none =>
        let w : Writer := { asid := asid, log := log, leaf := leaf, kind := 1, strand := true, ref := some ref }
        let r : MemReq := { waitFor .store with pa := p.pa, leaf := leaf,
                                                op := .store p.size p.data (if p.op = .stff then .fill else .none) }
        (match s.serve m.dst r w with
        | some (.value _ _ hit _, s) => s.send m.dst ref.core true m.tag (.postAck ref p.id hit)
        | some (_, s) => s.send m.dst ref.core true m.tag (.postAck ref p.id none)
        | none => s.send m.dst ref.core true m.tag (.postAck ref p.id none)))
    | _ => s)

/-- RED_ARRIVAL (07 R215): it is acknowledged when it enters the queue. -/
def execRedArrival (o : EvMsg) (s : State) : Out :=
  s.onArrival o.i isPostedRed (fun m s =>
    match m.body with
    | .post ref p leaf asid log l =>
      (match s.postWhy m p.pa, p.op with
      | some why, _ => s.send m.dst ref.core true m.tag (.postNak ref p.id why)
      | none, .red op =>
        let r : RedIn := { pa := p.pa, op := op, size := p.size, data := p.data.toNat % 2 ^ (8 * p.size), asid := asid, logged := log,
                           leaf := leaf, lslot := l, part := s.partOf m.src, uid := ref.uid }
        (s.redEnter m.dst r).send m.dst ref.core true m.tag (.postAck ref p.id none)
      | none, _ => s)
    | _ => s)

/-- MERGE_GROUP_TIMEOUT (07 R215): group o.n of core o.c has taken no entry for 512 core cycles. -/
def execMergeGroupTimeout (o : EvCoreN) (s : State) : Out :=
  .next (match (s.core o.c).merges[o.n]? with
    | none => s
    | some g => if g.lastAt + 512 ≤ s.cycle && !(s.core o.c).dbg.stop then s.closeGroup o.c o.n g else s)

/-- POST_ACK (00 R14; 06 R192). -/
def execPostAck (o : EvMsg) (s : State) : Out :=
  s.onMsg o.i (fun m s =>
    match m.body with
    | .postAck ref id w =>
      (s.receive o.i m).modCore ref.core (fun k => k.mapUid ref.uid (fun st =>
        let pc := match st.posts.find? (fun p => p.id = id) with | none => st.pc | some p => p.pc
        Strand.watched { st with posts := st.posts.filter (fun p => p.id != id) } pc w))
    | _ => s)

/-- POST_REFUSAL (05 R178; 06 R193). -/
def execPostRefusal (o : EvMsg) (s : State) : Out :=
  s.onMsg o.i (fun m s =>
    match m.body with
    | .postNak ref id why =>
      (s.receive o.i m).modCore ref.core (fun k => k.mapUid ref.uid (fun st =>
        match st.posts.find? (fun p => p.id = id) with
        | none => st
        | some p => st.postFailed p why))
    | _ => s)

/-! ### Boards (05 R173 to R176) -/

/-- BOARD_QUERY. -/
def execBoardQuery (o : EvMsg) (s : State) : Out :=
  s.onAsk o.i (fun b => match b with | .boardQuery _ _ _ => true | _ => false) (fun m s =>
    match m.body with
    | .boardQuery ref h k =>
      let r := s.boardState (s.partOf m.dst) h
      s.send m.dst ref.core true m.tag (.boardReply ref k r.1 r.2.1 r.2.2)
    | _ => s)

/-- BOARD_REPLY (01 R33; 05 R174, R176; 10 R342): a source's HANDLE bit clears once its operation has ended, and the instruction tries
again; a query ends. -/
def execBoardReply (o : EvMsg) (s : State) : Out :=
  s.onMsg o.i (fun m s =>
    match m.body with
    | .boardReply ref k state prog lst =>
      (s.receive o.i m).forAwait ref (fun st _ q s =>
        let c := ref.core
        let n := ref.slot
        let pop : Reg → State → State := fun a s => (s.popAll c n st [a]).2
        if q.cont != k then s
        else match k with
          | .source a =>
            let st' : Strand := if isEnded state then st.setPend a .clear else st
            s.putStrand c n { st' with run := .blocked .msg }
          | .fwait a => s.fwaitDone c n st a state (pop a)
          | .ftest a => s.ftestDone c n st a state (pop a)
          | .fstatus d a => (pop a s).writeBack c n st (some d) (statusWord state prog)
          | .lstat d a => (pop a s).writeBack c n st (some d) lst
          | _ => s)
    | _ => s)

/-- CANCEL_REQUEST (05 R175; 09 R323). -/
def execCancelRequest (o : EvMsg) (s : State) : Out :=
  s.onAsk o.i (fun b => match b with | .cancel _ => true | _ => false) (fun m s =>
    match m.body with
    | .cancel h => s.cancelRecord m.dst h
    | _ => s)

/-! ### Mirrors (11 R366; 13 R399) -/

/-- MIRROR_UPDATE: a mirror applies its home's update, or the acknowledgement of one comes back. A stopped core applies none. -/
def execMirrorUpdate (o : EvMsg) (s : State) : Out :=
  s.onMsg o.i (fun m s =>
    match m.body with
    | .mirrorUpdate midx seq runs strands =>
      if (s.core m.dst).dbg.stop || (s.core m.dst).cfg.fwdValid then s
      else
        let s := s.receive o.i m
        let runs := runs.map (fun r => (coreBase m.dst + r.1, r.2))
        let s := runs.foldl (fun s r => s.closeLines m.dst r.1 r.2.length) s
        let whole := (runs.map (fun r => wholeGranules r.1 r.2.length)).flatten
        let s : State := { s with mem := writeRuns s.mem runs, ecc := s.ecc.filter (fun g => !whole.contains g),
                                  soft := s.soft.filter (fun g => !whole.contains g) }
        (s.setMirrorSeq (s.partOf m.dst) (mirKeyCopy midx (s.core m.dst).cfg.ln) seq).send m.dst m.src true none (.mirrorAck strands)
    | .mirrorAck _ => s.receive o.i m
    | _ => s)

end Sys2Proof.Machine
end

