-- ==== Sys2Proof/Machine/EngineEvents.lean ====
section
/-! DEFINITION. Messages of the ring units, copy channels and proxies: appends, credits, steals, chunks and engine requests
(06 R205, R206; 09 R281, R286 to R292, R296, R301, R303). -/
namespace Sys2Proof.Machine
open Sys2Proof

/-- The write port's view of an append or a steal: an engine's write for the strand that asked (15 R434). -/
def State.appendWriter (s : State) (ref : Ref) (asid : Nat) : Writer :=
  { s.writerOf ref 0 with asid := asid, kind := 3, strand := false, ref := none }

/-! ### Appends (09 R289) -/

/-- A ring that takes remote appends and credit requests of a context. -/
def Ring.open (r : Ring) (asid : Nat) : Bool := r.asid = asid && !r.isDeque
/-- Credits are given back to the ring of the context that granted them. -/
def State.ungrant (s : State) (c : CoreId) (i asid n : Nat) : State :=
  match s.ring c i with
  | none => s
  | some r => if r.asid = asid then s.setRing c i { r with granted := r.granted - n } else s

/-- APPEND_ARRIVAL (09 R281, R289). -/
def execAppendArrival (o : EvMsg) (s : State) : Out :=
  s.onAsk o.i (fun b => match b with | .append _ _ _ _ _ => true | _ => false) (fun m s =>
    match m.body with
    | .append ref i asid cidx data =>
      let c := m.dst
      let refuse : Bool → State → State := fun switched s =>
        (s.ungrant c i asid 1).send c ref.core true m.tag (.appendReply ref cidx false switched)
      (match s.turnedAway m (coreBase c), s.ring c i with
      | some _, _ => refuse true s
      | none, none => refuse false s
      | none, some r =>
        if r.open asid then
          (s.ringAppend c i { r with granted := r.granted - 1 } data (s.appendWriter ref asid)).send c ref.core true m.tag
            (.appendReply ref cidx true false)
        else refuse false s)
    | _ => s)

/-- APPEND_REPLY (09 R289). -/
def execAppendReply (o : EvMsg) (s : State) : Out :=
  s.onMsg o.i (fun m s =>
    match m.body with
    | .appendReply ref i ok switched =>
      let s := s.receive o.i m
      let s := if ok || switched then s else s.dropCredit ref.core i
      s.forAwait ref (fun st _ q s =>
        match q.cont with
        | .rapp _ => s.complete ref.core ref.slot (st.setP3 ok)
        | _ => s)
    | _ => s)

/-! ### Credits (09 R288, R290) -/

/-- CREDIT_REQUEST (09 R288). -/
def execCreditRequest (o : EvMsg) (s : State) : Out :=
  s.onAsk o.i (fun b => match b with | .creditReq _ _ _ => true | _ => false) (fun m s =>
    match m.body with
    | .creditReq i asid cidx =>
      let c := m.dst
      let reply : Nat → Nat → Bool → State → State := fun g sizem1 refused s =>
        s.send c m.src true m.tag (.creditGrant cidx g sizem1 refused)
      (match s.turnedAway m (coreBase c), s.ring c i with
      | none, some r =>
        let g := min r.cbatch r.free
        if !r.open asid then reply 0 0 true s
        else if g > 0 then reply g r.sizem1 false (s.setRing c i { r with granted := r.granted + g })
        else if r.waiters.length < 8 then s.setRing c i { r with waiters := r.waiters ++ [((s.core m.src).cfg.ln, cidx)] }
        else reply 0 r.sizem1 false s
      | _, _ => reply 0 0 true s)
    | _ => s)

/-- CREDIT_GRANT (09 R288): credits, a refusal, or a grant of 0 that makes the core ask again after 256 cycles. -/
def execCreditGrant (o : EvMsg) (s : State) : Out :=
  s.onMsg o.i (fun m s =>
    match m.body with
    | .creditGrant i g sizem1 refused =>
      let s := s.receive o.i m
      let c := m.dst
      (match s.credit c i with
      | none => s
      | some e =>
        if refused then s.dropCredit c i
        else if g = 0 then s.setCredit c i { e with resend := some (s.cycle + 256) }
        else s.setCredit c i { e with credits := e.credits + g, req := false, sizem1 := sizem1, resend := none })
    | _ => s)

/-- CREDIT_RESEND_TIMER (09 R288): entry o.n of core o.c asks again. -/
def execCreditResendTimer (o : EvCoreN) (s : State) : Out :=
  .next (match s.credit o.c o.n with
    | none => s
    | some e =>
      match e.resend with
      | none => s
      | some t =>
        if s.cycle < t then s
        else match s.lnCore (s.partOf o.c) e.ln with
          | none => s.dropCredit o.c o.n
          | some d => (s.setCredit o.c o.n { e with resend := none }).send o.c d false e.tag (.creditReq e.ring e.asid o.n))

/-- CREDIT_RETURN (09 R290): the ring takes back the credits it granted. -/
def execCreditReturn (o : EvMsg) (s : State) : Out :=
  s.onAsk o.i (fun b => match b with | .creditReturn _ _ _ _ _ => true | _ => false) (fun m s =>
    match m.body with
    | .creditReturn ref i asid cidx n =>
      let s := s.ungrant m.dst i asid n
      (match ref with
      | none => s
      | some r => s.send m.dst r.core true m.tag (.creditReturned r cidx n))
    | _ => s)

/-! ### Deques (09 R291, R292) -/

/-- STEAL_REQUEST (09 R280, R291, R292): one event of the ring unit. -/
def execStealRequest (o : EvMsg) (s : State) : Out :=
  s.onAsk o.i (fun b => match b with | .steal _ _ _ => true | _ => false) (fun m s =>
    match m.body with
    | .steal ref i asid =>
      let c := m.dst
      (match s.turnedAway m (coreBase c), s.ring c i with
      | none, some r =>
        if r.isDeque && r.asid = asid && r.avail ≥ 1 then
          let a := coreBase c + r.addr r.head
          let s := s.closeLines c a r.size
          (s.setRing c i { r with head := (r.head + 1) % 65536 }).send c ref.core true m.tag
            (.stealReply ref (some (memRead s.mem a r.size)))
        else s.send c ref.core true m.tag (.stealReply ref none)
      | _, _ => s.send c ref.core true m.tag (.stealReply ref none))
    | _ => s)

/-- The bytes of a stolen entry, granule by granule (09 R291). -/
def State.landEntry (s : State) (c : CoreId) (off : Nat) (data : List Byte) (w : Writer) : State :=
  (span 0 (data.length / 16)).foldl (fun (s : State) (j : Nat) =>
    (s.put c [(coreBase c + off + 16 * j, (data.drop (16 * j)).take 16)] [] w).1) s

/-- STEAL_REPLY (09 R291). -/
def execStealReply (o : EvMsg) (s : State) : Out :=
  s.onMsg o.i (fun m s =>
    match m.body with
    | .stealReply ref data =>
      (s.receive o.i m).forAwait ref (fun st _ q s =>
        let c := ref.core
        let n := ref.slot
        match q.cont, data with
        | .rsteal _ _, none => s.complete c n (st.setP3 false)
        | .rsteal _ off, some b =>
          if off < 0x20000000 || off + b.length > 0x20100000 then s.takeFault c n st (fAccess (wd off) 0)
          else (s.landEntry c off b (s.appendWriter ref st.asid)).complete c n (st.setP3 true)
        | _, _ => s)
    | _ => s)

/-! ### Copies (09 R301, R303) -/

/-- A destination whose router refuses chunks: a stopped core, or a quiesced partition for traffic from outside (14 R418; 15 R445). -/
def State.chunkHeld (s : State) (m : Msg) : Bool :=
  let k := s.core m.dst
  k.dbg.stop || (m.src.w != m.dst.w && bitAt k.cfg.partcfg 46)

/-- COPY_CHUNK_ARRIVAL (09 R301, R303): a chunk at its destination, or its acknowledgement at the channel. -/
def execCopyChunkArrival (o : EvMsg) (s : State) : Out :=
  s.onMsg o.i (fun m s =>
    match m.body with
    | .chunk rec' origin pa data asid log bcb fill leaf =>
      let c := m.dst
      if (s.core c).cfg.fwdValid then s
      else
        let s := s.receive o.i m
        (match s.turnedAway m pa with
        | some _ => s.send c origin true m.tag (.chunkNak rec' (some pa))
        | none =>
          if s.chunkHeld m then
            (s.modCore c (fun k => { k with notify := k.notify ++ [(coreKey origin, rec')] })).send c origin true m.tag
              (.chunkNak rec' none)
          else (s.chunkLand c pa data asid log bcb fill leaf).send c origin true m.tag (.chunkAck rec' data.length))
    | .chunkAck rec' _ => (s.receive o.i m).chunkAcked m.dst rec'
    | _ => s)

/-- COPY_CHUNK_REFUSED (09 R302, R303): the copy waits at its remainder; an access that no core may make ends the launch. -/
def execCopyChunkRefused (o : EvMsg) (s : State) : Out :=
  s.onMsg o.i (fun m s =>
    match m.body with
    | .chunkNak rec' none => (s.receive o.i m).chunkRefused m.dst rec'
    | .chunkNak rec' (some pa) =>
      let s := s.receive o.i m
      (match s.runningCopy m.dst rec' with
      | none => s
      | some (r, _) => s.recordFault m.dst rec' r (fAccess (wd pa) 0))
    | _ => s)

/-- COPY_RESUME_NOTICE (09 R296, R303). -/
def execCopyResumeNotice (o : EvMsg) (s : State) : Out :=
  s.onMsg o.i (fun m s =>
    match m.body with
    | .resumeNotice rec' => (s.receive o.i m).copyResume m.dst rec'
    | _ => s)

/-! ### Proxies (06 R205, R206) -/

/-- A core without the feature sends the request on, or ends it in FEATURE-ABSENT with the hops made. -/
def State.hopOn (s : State) (m : Msg) (bit hops : Nat) (ref : Option Ref) (body : Body) : State :=
  match s.nextProxy m.dst bit hops with
  | some d => s.send m.dst d false m.tag body
  | none =>
    match ref with
    | none => s
    | some r => s.send m.dst r.core true m.tag (.proxyReply r (wd hops) 2)

/-- PROXY_REQUEST (06 R205, R206; 09 R298, R306, R312, R321, R322): a full scheduler leaves the request waiting. -/
def execProxyRequest (o : EvMsg) (s : State) : Out :=
  s.onMsg o.i (fun m s =>
    let c := m.dst
    let k := s.core c
    if k.cfg.fwdValid || k.dbg.stop then s
    else match m.body with
      | .proxyTask ref hops r =>
        let bit := if r.isCopy then 3 else 2
        if !k.has bit then (s.receive o.i m).hopOn m bit hops (some ref) (.proxyTask ref (hops + 1) r)
        else (match (s.receive o.i m).enqueueTask c r with
          | .full => s
          | .bad reason => (s.receive o.i m).send c ref.core true m.tag (.proxyReply ref (badHandle reason) 0)
          | .ok h s => (s.markOut c r).send c ref.core true m.tag (.proxyReply ref h 1))
      | .proxyProg ref hops slot asid d0 d1 =>
        let s := s.receive o.i m
        if !k.has 2 then s.hopOn m 2 hops (some ref) (.proxyProg ref (hops + 1) slot asid d0 d1)
        else
          let x := s.loadProg c slot asid d0 d1
          x.2.send c ref.core true m.tag (.proxyReply ref 0 (b01 x.1))
      | .proxyThr hops asid va =>
        let s := s.receive o.i m
        if !k.has 2 then s.hopOn m 2 hops none (.proxyThr (hops + 1) asid va) else s.signalTheta c asid va
      | .proxyQuery ref hops sel =>
        let s := s.receive o.i m
        if !k.has 2 then s.hopOn m 2 hops (some ref) (.proxyQuery ref (hops + 1) sel)
        else s.send c ref.core true m.tag (.proxyReply ref (k.query sel) 1)
      | _ => s)

end Sys2Proof.Machine
end

