-- ==== Sys2Proof/Machine/Device.lean ====
section
/-! DEFINITION. Steps of the module: doorbells and host accesses, boot, firmware, attestation, the lifetime record, power, checkpoints,
failing links and the fabric capability (13 R413; 14 R425 to R431; 16 R453, R456, R458, R460). -/
namespace Sys2Proof.Machine
open Sys2Proof

/-! ### Doorbells (14 R423, R425) -/

def State.setDoorbell (s : State) (n : Nat) (d : Doorbell) : State :=
  { s with pkg := { s.pkg with doorbells := tblSet s.pkg.doorbells n d } }
/-- STATUS: the reason of the refusal, or 0. -/
def doorStatus (h : Word) : Nat := if hKind h = 3 then h.toNat % 256 else 0

/-- DOORBELL_LAUNCH: a record for a VF that is switched out is held, up to 64 of them. -/
def execDoorbellLaunch (o : EvDoorbell) (s : State) : Out :=
  .next (match List.lookup o.n s.pkg.doorbells with
    | none => s
    | some d =>
      let here := match s.part d.part with
        | none => false
        | some x => x.vf = d.vf
      if here then
        let r := s.enqueueLaunch d.part d.asid o.words
        r.2.setDoorbell o.n { d with status := doorStatus r.1 }
      else
        let v := tblGet { part := d.part, vmid := 0, fabric := false, heldRecs := [] } s.pkg.vfs d.vf
        if v.heldRecs.length < 64 then
          ({ s with pkg := { s.pkg with vfs := tblSet s.pkg.vfs d.vf { v with heldRecs := v.heldRecs ++ [(o.n, o.words)] } } } :
            State).setDoorbell o.n { d with status := 0 }
        else s.setDoorbell o.n { d with status := 0x13 })

/-! ### Host accesses through BAR2 (13 R413; 14 R425) -/

/-- The context of a window: the core and ASID that translate for it, its partition and base (log 13). -/
def State.windowCtx (s : State) (link : Nat) : Option (CoreId × Nat × Nat × Nat) :=
  match List.lookup link s.pkg.windows with
  | none => none
  | some (p, asid, base) =>
    match s.headCore p with
    | none => none
    | some c => some (c, asid, p, base)
/-- The lookup context of a host access: in place, without privilege (log 13). -/
def HostJob.ctx (j : HostJob) : XCtx := { core := j.core, barrel := none, asid := j.asid, priv := false, uid := none }

/-- The PA and leaf of a host access's next granule; bad when it cannot be translated to device memory, wait while an invalidation holds it
or its home is stopped (11 R371; 15 R445). -/
inductive HostPa where
  | ok (pa : Nat) (leaf : Word) (s : State)
  | bad (s : State)
  | wait
def State.hostPa (s : State) (j : HostJob) (kind : Nat) : HostPa :=
  match s.xlate j.ctx (wd j.va) kind with
  | .wait _ => .wait
  | .fault _ s => .bad s
  | .ok pa leaf s =>
    if isHost pa || s.farBlocked j.core pa then .bad s
    else match s.checkPa j.core false .va 0 pa leaf s, s.landsAt 9 pa with
      | .ok _ _ _, some pa => if (s.core (homeOf pa)).dbg.stop then .wait else .ok pa leaf s
      | _, _ => .bad s

/-- What the host receives: the bytes, or UR, which is counted (14 R425). -/
def State.hostGets (s : State) (b : List Byte) : State := { s with pkg := { s.pkg with hostReply := b } }
def State.hostUr (s : State) : State := { s with pkg := { s.pkg with urCount := s.pkg.urCount + 1, hostReply := [] } }
/-- A window access that its link can carry. -/
def State.hostOpen (s : State) (link off n : Nat) : Bool :=
  link < 12 && !s.pkg.linksDown.contains link && !s.pkg.shelves.contains link && off + n ≤ 2 ^ 40

/-! ### Configuration space and BAR0 as the host reads them (14 R425, R427 to R430) -/

/-- Where host accesses name what is no byte of BAR2: BAR0's doorbells from here on, and byte b of the capability of an ID at
hostCaps + 2^16 × ID + b (DESIGN CHOICE, log 66: the spec gives the capabilities no offsets). -/
def hostBar0 : Nat := 2 ^ 40
def hostCaps : Nat := 2 ^ 41
/-- The header of a capability: NEXT, VERSION, ID (14 R429). The list runs in the order of the IDs, from offset 0x40 on (log 66). -/
def capHeader (id : Nat) : List Byte :=
  leBytes 4 ((if id < 6 then (Config.capOffset (id + 1)).toNat else 0) * 65536 + (Config.capVersion id).toNat * 256 + id)
/-- A field's record before any cap is written: the nominal rate (log 5). -/
def Power.reset : Power := { cap := 0, step := 16, throttles := 0, phase := 0 }
/-- What follows the header: the power capability's caps and throttle counts, the attestation report, the lifetime record (14 R427, R428,
R430). -/
def State.capBody (s : State) (id : Nat) : List Byte :=
  let w : Nat → Power := fun f => tblGet Power.reset s.pkg.power f
  if id = 3 then ((span 0 80).map (fun f => leBytes 2 (w f).cap) ++ (span 0 80).map (fun f => leBytes 8 (w f).throttles)).flatten
  else if id = 4 then
    (match s.pkg.attest with
    | none => []
    | some a => a.identity ++ a.digest ++ leBytes 4 a.liveCount ++ a.nonce ++ a.signature)
  else if id = 6 then
    let l := s.pkg.flash
    let bins : List (Nat × Nat) → List Nat := fun h => (span 0 16).map (tblGet 0 h)
    (([l.corrected, l.crcRetries, l.throttles] ++ bins l.bounces ++ bins l.migrations ++ bins l.temperatures).map (leBytes 8)).flatten
  else []
/-- Bytes of a capability; what is behind its contents reads as zero. -/
def State.capRead (s : State) (off n : Nat) : List Byte :=
  let id := off / 65536 % 65536
  let l := if 1 ≤ id && id ≤ 6 then capHeader id ++ s.capBody id else []
  (span (off % 65536) n).map (fun i => l.getD i 0)
/-- A byte written to the power capability's caps; every other byte of configuration space is read-only. -/
def State.capWrite (s : State) (off : Nat) (b : Byte) : State :=
  let i := off % 65536 - 4
  if off / 65536 % 65536 = 3 && 4 ≤ off % 65536 && i < 160 then
    let q := tblGet Power.reset s.pkg.power (i / 2)
    let cap := if i % 2 = 0 then q.cap / 256 * 256 + b.toNat else b.toNat * 256 + q.cap % 256
    { s with pkg := { s.pkg with power := tblSet s.pkg.power (i / 2) { q with cap := cap } } }
  else s
def capWrites (off : Nat) : State → List Byte → State
  | s, [] => s
  | s, b :: t => capWrites (off + 1) (s.capWrite off b) t
/-- A doorbell's STATUS at offset 0x40 of its 4 KiB; the other bytes of BAR0 read as zero (14 R425). -/
def State.doorRead (s : State) (off n : Nat) : List Byte :=
  match List.lookup (off / 4096) s.pkg.doorbells with
  | none => List.replicate n 0
  | some d => (span (off % 4096) n).map (fun i => (leBytes 8 d.status).getD (i - 0x40) 0)
/-- A link that carries an access to configuration space or BAR0. -/
def State.linkUp (s : State) (link : Nat) : Bool := link < 12 && !s.pkg.linksDown.contains link && !s.pkg.shelves.contains link

/-- The writer of a host access: the window's context, whose log slot decides alone (15 R433). -/
def hostWriter (asid : Nat) (leaf : Word) : Writer :=
  { asid := asid, log := true, leaf := leaf, kind := 4, strand := false, ref := none }
def hostAmo : Nat → AmoOp
  | 0 => .swap | 1 => .cas | _ => .add
/-- A try of a host access: it has ended, one of its granules is done, or it waits. -/
inductive HostTry where
  | done (s : State)
  | more (j : HostJob) (s : State)
  | wait
/-- An atomic (13 R413): only on a SYSATOM page, one event at the home's write port. -/
def State.hostAtomic (s : State) (j : HostJob) (op size : Nat) (a b : Word) : HostTry :=
  if !(size = 4 || size = 8) || op > 2 || j.va % size != 0 then .done s.hostUr
  else match s.hostPa j kRead with
    | .wait => .wait
    | .bad s => .done s.hostUr
    | .ok _ leaf s =>
      if !lfSysatom leaf then .done ((s.modPart j.part (fun y => { y with hostRefused := y.hostRefused + 1 })).hostGets [])
      else match s.hostPa j kAtomic with
        | .wait => .wait
        | .bad s => .done s.hostUr
        | .ok pa leaf s =>
          let r : MemReq := { waitFor .store with pa := pa, va := wd j.va, leaf := leaf, op := .amo (hostAmo op) size a b }
          match s.serve (homeOf pa) r (hostWriter j.asid leaf) with
          | some (.value v _ _ _, s) => .done (s.hostGets (leBytes size v.toNat))
          | some (_, s) => .done s.hostUr
          | none => .done s.hostUr
/-- The next granule of a host access, one event at its home (13 R397). -/
def State.hostTry (s : State) (j : HostJob) : HostTry :=
  match j.op with
  | .atomic op size a b => s.hostAtomic j op size a b
  | .read left got =>
    let k := min left (16 - j.va % 16)
    (match s.hostPa j kRead with
    | .wait => .wait
    | .bad s => .done s.hostUr
    | .ok pa leaf s =>
      match s.readPa pa k leaf true with
      | .fault _ s => .done s.hostUr
      | .ok b s =>
        if k = left then .done (s.hostGets (got ++ b)) else .more { j with va := j.va + k, op := .read (left - k) (got ++ b) } s)
  | .write data =>
    let k := min data.length (16 - j.va % 16)
    (match s.hostPa j kWrite with
    | .wait => .wait
    | .bad s => .done s.hostUr
    | .ok pa leaf s =>
      let s := (s.put (homeOf pa) [(pa, data.take k)] [] (hostWriter j.asid leaf)).1
      if k = data.length then .done (s.hostGets []) else .more { j with va := j.va + k, op := .write (data.drop k) } s)

def State.setJobs (s : State) (l : List HostJob) : State := { s with pkg := { s.pkg with hostJobs := l } }
/-- The next granule of the first access under way. -/
def State.hostStep (s : State) : State :=
  match s.pkg.hostJobs with
  | [] => s
  | j :: t =>
    match s.hostTry j with
    | .wait => s
    | .done s => s.setJobs t
    | .more j s => s.setJobs (j :: t)
/-- A host access through a window: its first granule at once, unless an earlier access is under way, and the others one by one. -/
def State.hostAccess (s : State) (link off n : Nat) (op : HostOp) : State :=
  if !s.hostOpen link off n then s
  else match s.windowCtx link with
    | none => s.hostUr
    | some (c, asid, p, base) =>
      let s' := s.setJobs (s.pkg.hostJobs ++ [{ link := link, core := c, asid := asid, part := p, va := base + off, op := op }])
      if s.pkg.hostJobs.isEmpty then s'.hostStep else s'

/-- HOST_READ. -/
def execHostRead (o : EvHostRead) (s : State) : Out :=
  .next (
    if o.off ≥ hostCaps then (if s.linkUp o.link then s.hostGets (s.capRead (o.off - hostCaps) o.size) else s)
    else if o.off ≥ hostBar0 then (if s.linkUp o.link then s.hostGets (s.doorRead (o.off - hostBar0) o.size) else s)
    else s.hostAccess o.link o.off o.size (.read o.size []))
/-- HOST_WRITE. A record written to a doorbell is DOORBELL_LAUNCH. -/
def execHostWrite (o : EvHostWrite) (s : State) : Out :=
  .next (
    if o.off ≥ hostCaps then (if s.linkUp o.link then (capWrites (o.off - hostCaps) s o.data).hostGets [] else s)
    else s.hostAccess o.link o.off o.data.length (.write o.data))
/-- HOST_ATOMIC (13 R413). -/
def execHostAtomic (o : EvHostAtomic) (s : State) : Out :=
  .next (s.hostAccess o.link o.off o.size (.atomic o.op o.size o.a o.b))

/-- ABAGAL_LINK_DOWN (14 R425): accesses under way over the link end with it. -/
def execAbagalLinkDown (o : EvIdx) (s : State) : Out :=
  .next { s with pkg := { s.pkg with linksDown := setAdd s.pkg.linksDown o.i, hostJobs := s.pkg.hostJobs.filter (fun j => j.link != o.i) } }

/-! ### Boot (12 R376 to R384; 14 R426) -/

/-- Every position of a wafer, in the order of core keys. -/
def waferGrid (w : Nat) : List CoreId := ((span 0 240).map (fun x => (span 0 256).map (fun y => ({ w := w, x := x, y := y } : CoreId)))).flatten
/-- What built-in test finds at a position (12 R376): a position inside a paddock is lost (R377). -/
def bootClass (o : EvBoot) (pads : List Paddock) (c : CoreId) : Class :=
  if inPaddock pads c then .dead else if o.dark.contains (c.x, c.y) then .dark else .live
/-- The features that built-in test finds; SCALAR is always 1 (01 R29). -/
def bootMask (o : EvBoot) (c : CoreId) : Nat := ((List.lookup (c.x, c.y) o.feats).getD 0x1F) % 32 / 2 * 2 + 1
/-- A core after core reset with boot's findings (07 R234; 16 R453). -/
def bootCore (o : EvBoot) (pads : List Paddock) (grooms : List CoreId) (c : CoreId) : Nat × Core :=
  (coreKey c, { Core.reset with cfg := { CoreCfg.reset with
    cls := bootClass o pads c, groom := grooms.contains c, mask := bootMask o c, fabcfg := wd (o.wafer % 64) } })
/-- The paddocks that grow from the dead positions (12 R377). -/
def bootPads (o : EvBoot) : List Paddock :=
  growPaddocks 4096 ((o.dead.filter (fun q => q.1 < 240 && q.2 < 256)).map (paddockAt o.wafer))
/-- The first live candidate of each field (12 R379). -/
def bootGrooms (o : EvBoot) (pads : List Paddock) : List CoreId :=
  ((span 0 10).map (fun fx => (span 0 8).filterMap (fun fy =>
    (groomCandidates o.wafer fx fy).find? (fun c => match bootClass o pads c with | .live => true | _ => false)))).flatten

def wholeWafer (w : Nat) : Fields := { w := w, fx0 := 0, fy0 := 0, fwm1 := 9, fhm1 := 7 }
/-- The single partition that covers every field (14 R426 step 3), with default wheel slots (12 R384). -/
def bootDesc (w : Nat) : PartDesc :=
  { fields := wholeWafer w, vmid := 0, valid := true, part := 0, merge := [], wslots := wslotsDefault, mask := 0xFF,
    isets := List.replicate 8 0, reserved := false }

/-- BOOT (14 R426 steps 1 to 4): test, paddocks, numbering, the partition and the wheel period. A period above 4,096 fails boot
(12 R383). A wafer boots once. -/
def execBoot (o : EvBoot) (s : State) : Out :=
  .next (
    let w := o.wafer % 64
    let o : EvBoot := { o with wafer := w }
    if s.cores.any (fun e => (coreOfKey e.1).w = w) then s
    else
      let pads := bootPads o
      let grooms := bootGrooms o pads
      if wheelPeriod pads (wholeWafer w) > 4096 then s
      else
        let s : State := { s with
          cores := s.cores.filter (fun e => e.1 < w * 65536) ++ (waferGrid w).map (bootCore o pads grooms) ++
            s.cores.filter (fun e => w * 65536 < e.1),
          pkg := { s.pkg with paddocks := s.pkg.paddocks ++ pads, stage := .rom } }
        let s := s.partApply w (bootDesc w)
        s.publishMap (16 * w) (s.coresOf (16 * w)))

/-! ### Firmware, attestation, lifetime record (14 R424, R426 to R428) -/

/-- Ralax runs: its first load sets the spill sheds (07 R227; log 45), and a load into a halted field sets its groom going (14 R424). -/
def State.ralaxRuns (s : State) (image : List Byte) : State :=
  let first := match s.pkg.stage with | .running => false | _ => true
  let s : State := { s with cores := s.cores.map (fun e => (e.1, { e.2 with cfg := { e.2.cfg with
    halted := false, spillcfg := if first then wd (0x1FF0 * 65536 + 4096) else e.2.cfg.spillcfg } })) }
  { s with pkg := { s.pkg with stage := .running, image := image, haltedFields := [] } }
/-- FIRMWARE_LOAD (14 R424, R426): an image whose signature fails leaves every groom in its ROM. -/
def execFirmwareLoad (o : EvImage) (s : State) : Out :=
  .next (match s.pkg.stage with
    | .off => s
    | _ => if Config.imageSigned o.image then s.ralaxRuns o.image else { s with pkg := { s.pkg with stage := .rejected } })

/-- The live, numbered user cores of every wafer. -/
def State.liveTotal (s : State) : Nat := ((span 0 64).map (fun w => (s.userCores (wholeWafer w)).length)).sum
/-- ATTESTATION (14 R427). -/
def execAttestation (o : EvNonce) (s : State) : Out :=
  .next (if o.nonce.length != 32 then s
    else
      let digest := Config.sha256 s.pkg.image
      let report := Config.waferIdentity ++ digest ++ leBytes 4 s.liveTotal ++ o.nonce
      let a : Attest := { identity := Config.waferIdentity, digest := digest, liveCount := s.liveTotal, nonce := o.nonce,
                          signature := Config.attestSignature report }
      { s with pkg := { s.pkg with attest := some a } })

/-- LIFETIME_WRITE (14 R428). -/
def execLifetimeWrite (_o : EvNone) (s : State) : Out := .next { s with pkg := { s.pkg with flash := s.pkg.lifetime } }
/-- ORDERLY_SHUTDOWN (14 R428): the record is written and nothing runs any more. -/
def execOrderlyShutdown (_o : EvNone) (s : State) : Out :=
  .next { s with pkg := { s.pkg with flash := s.pkg.lifetime, stage := .off } }

/-! ### Power (14 R430) -/

/-- A field's clock takes another step; its count of core cycles goes on from where it stands (00 R2). -/
def Power.setStep (q : Power) (cycle step : Nat) : Power :=
  { q with step := step, phase := q.phase + (cycle * q.step / 16 : Nat) - (cycle * step / 16 : Nat) }
/-- POWER_CHECK: the field's clocks in sixteenths of the nominal rate. -/
def execPowerCheck (o : EvPower) (s : State) : Out :=
  .next (
    let q := tblGet Power.reset s.pkg.power o.field
    let set : Power → Lifetime → State := fun q l => { s with pkg := { s.pkg with power := tblSet s.pkg.power o.field q, lifetime := l } }
    let l := s.pkg.lifetime
    if o.watts > q.cap then
      if q.step > 4 then set { q.setStep s.cycle (q.step - 1) with throttles := q.throttles + 1 } { l with throttles := l.throttles + 1 } else s
    else if 10 * o.watts < 9 * q.cap && q.step < 16 then set (q.setStep s.cycle (q.step + 1)) l
    else s)

/-! ### Checkpoints (14 R431) -/

/-- A cell or granule of the DRAM of a partition's cores. -/
def State.inDramOf (s : State) (p pa : Nat) : Bool := !isHost pa && inDram (offOf pa) && (s.ownCores p).contains (homeOf pa)
/-- Every reduction of the partition's homes is applied. -/
def State.settle (s : State) (p : Nat) : State := overCores s (fun s c => State.closeAll (s.core c).merges.length s c) (s.ownCores p)
/-- The links of a command are wired to shelves. -/
def State.shelfLinks (s : State) (links : Nat) : Bool := links % 4096 != 0 && links < 4096 && (bitsOf 12 links).all s.pkg.shelves.contains

/-- CHECKPOINT_COMMAND: hold, write, release; while the hold waits, the command fires again. -/
def execCheckpointCommand (o : EvCheckpoint) (s : State) : Out :=
  .next (if (s.part o.p).isNone || !s.shelfLinks o.links then s
    else
      let h := s.holdPass o.p
      if h.1 then h.2.2
      else if h.2.1 != 0 then h.2.2.release o.p
      else
        let s := h.2.2.settle o.p
        let k : Checkpoint := { target := o.target, part := o.p, cells := s.mem.filter (fun c => s.inDramOf o.p c.1),
                                feEmpty := s.feEmpty.filter (fun g => s.inDramOf o.p (16 * g)) }
        ({ s with pkg := { s.pkg with checkpoints := s.pkg.checkpoints.filter (fun y => !(y.target = o.target && y.part = o.p)) ++ [k] } } :
          State).release o.p)

/-- CHECKPOINT_RESTORE: the steps reversed. -/
def execCheckpointRestore (o : EvRestore) (s : State) : Out :=
  .next (match s.part o.p, s.pkg.checkpoints.find? (fun y => y.target = o.target && y.part = o.p) with
    | some _, some k =>
      let h := s.holdPass o.p
      if h.1 then h.2.2
      else if h.2.1 != 0 then h.2.2.release o.p
      else
        let s := h.2.2.settle o.p
        ({ s with mem := memPaste (s.mem.filter (fun c => !s.inDramOf o.p c.1)) 0 0 k.cells,
                  feEmpty := k.feEmpty.foldl setAdd (s.feEmpty.filter (fun g => !s.inDramOf o.p (16 * g))),
                  ecc := s.ecc.filter (fun g => !s.inDramOf o.p (16 * g)),
                  soft := s.soft.filter (fun g => !s.inDramOf o.p (16 * g)) } : State).release o.p
    | _, _ => s)

/-! ### Dezal links (16 R456, R458, R460) -/

/-- LINK_CRC_RETRY: o.i is the key of the gateway's core (log 29). -/
def execLinkCrcRetry (o : EvIdx) (s : State) : Out :=
  .next (({ s with pkg := { s.pkg with lifetime := { s.pkg.lifetime with crcRetries := s.pkg.lifetime.crcRetries + 1 } } } : State).perf
    (coreOfKey o.i) 0x10 1)

/-- A request that changes nothing at its home. -/
def MemReq.harmless (r : MemReq) : Bool :=
  match r.op with
  | .load _ .waitClear => false
  | .load _ _ => true
  | .wait _ _ _ => true
  | _ => false
/-- A message that a failing link held leaves the network; its end is counted on the requester's core. -/
def State.loseMsg (s : State) (i : Nat) (m : Msg) (c : CoreId) : State :=
  let s : State := { s with net := dropAt s.net i }
  match m.tag with
  | none => s
  | some t => s.modCore c (fun k => k.countSent t.lslot 0 1)
/-- The message leaves once more, over a surviving link. -/
def State.sendAgain (s : State) (i : Nat) (m : Msg) : State := { s with net := dropAt s.net i ++ [{ m with fwd := m.fwd + 16 }] }

/-- A message lost on a link while another path survives (16 R458). -/
def State.lostOnLink (s : State) (i : Nat) (m : Msg) : State :=
  match m.body with
  | .post ref p _ _ _ _ =>
    (s.loseMsg i m ref.core).modCore ref.core (fun k => k.mapUid ref.uid (fun st => st.postFailed p 3))
  | .request ref r =>
    if m.fwd < 16 then s.sendAgain i m
    else (s.loseMsg i m ref.core).send ref.core ref.core true none (.reply ref r .refused)
  | .chunk rec' origin pa _ _ _ _ _ _ =>
    if m.fwd < 16 then s.sendAgain i m
    else (s.loseMsg i m origin).send origin origin true none (.chunkNak rec' (some pa))
  | .reply ref r _ =>
    let s := s.loseMsg i m ref.core
    if r.harmless then s.send ref.core (homeOf r.pa) false m.tag (.request ref r)
    else s.send ref.core ref.core true none (.reply ref r .refused)
  | _ => s.sendAgain i m

/-- A strand whose operation is outstanding to an unreachable wafer ends its launch, wherever it waits. -/
def State.cutStrand (s : State) (c : CoreId) (uid pa : Nat) : State :=
  match (s.core c).standing uid with
  | some (n, st) => (match st.run with | .faulted => s | _ => s.takeFault c n st (fAccess (wd pa) 0))
  | none =>
    match (s.core c).strandsOf (fun st => st.uid = uid) with
    | [] => s
    | st :: _ => s.reportFault c st.asid st.lslot 0 st.sid st.pc 0 (fAccess (wd pa) 0)

/-- The far location of a strand's outstanding operation, if one crosses to or from wafer w. -/
def State.crossing (s : State) (w : Nat) (c : CoreId) (st : Strand) : Option Nat :=
  let far : Nat → Bool := fun pa => !isHost pa && (homeOf pa).w != c.w && ((homeOf pa).w = w || c.w = w)
  match st.posts.find? (fun p => far p.pa), st.run with
  | some p, _ => some p.pa
  | none, .await _ r =>
    if far r.pa && (match r.op with | .load _ _ => r.pa != 0 | _ => true) then some r.pa
    else none
  | none, _ =>
    s.net.findSome? (fun m => match m.body with
      | .request ref r => if ref.uid = st.uid && far r.pa then some r.pa else none
      | .reply ref r _ => if ref.uid = st.uid && far r.pa then some r.pa else none
      | _ => none)
/-- Copies with a chunk on its way across. -/
def State.crossingCopies (s : State) (w : Nat) : List (CoreId × Nat × Nat) :=
  s.net.filterMap (fun m => match m.body with
    | .chunk rec' origin pa _ _ _ _ _ _ => if origin.w != (homeOf pa).w && (origin.w = w || (homeOf pa).w = w) then some (origin, rec', pa) else none
    | .chunkAck rec' _ => if m.src.w != m.dst.w && (m.src.w = w || m.dst.w = w) then some (m.dst, rec', coreBase m.src) else none
    | _ => none)

/-- Launches with a participant in an open fabric phase whose group has a partition on the wafer (16 R460). -/
def State.cutPhases (s : State) (w : Nat) (parts : List Nat) : State :=
  parts.foldl (fun (s : State) (p : Nat) =>
    match s.headCore p, s.part p with
    | some d, some x =>
      let root := fld (s.core d).cfg.fabcfg 21 16
      if bitAt (s.core d).cfg.fabcfg 15 && (s.groupParts root).any (fun q => waferOfPart q = w) then
        x.launches.foldl (fun (s : State) (l : Launch) =>
          match l.slot with
          | none => s
          | some n =>
            if l.gangs.any (fun g => (span 11 21).any (fun ch =>
                (s.core d).isFabric ch && s.phaseOpen p n l g ch && !x.fabResults.any (fun r => r.chan = ch)))
            then s.noteFault p l.order { lossRecord s d with addr := wd (coreBase { w := w, x := 0, y := 0 }) }
            else s) s
      else s
    | _, _ => s) s

/-- No path to wafer w survives (16 R458, R460). -/
def State.waferLost (s : State) (w : Nat) : State :=
  let cut := (s.cores.map (fun e => ((e.2.strandsOf (fun _ => true)).filterMap (fun st =>
    match s.crossing w (coreOfKey e.1) st with
    | none => none
    | some pa => some (coreOfKey e.1, st.uid, pa))))).flatten
  let copies := s.crossingCopies w
  let s : State := { s with pkg := { s.pkg with dezalDown := setAdd s.pkg.dezalDown w } }
  let s := cut.foldl (fun (s : State) (x : CoreId × Nat × Nat) => s.cutStrand x.1 x.2.1 x.2.2) s
  let s := copies.foldl (fun (s : State) (x : CoreId × Nat × Nat) =>
    match s.runningCopy x.1 x.2.1 with
    | none => s
    | some (r, _) => s.recordFault x.1 x.2.1 r (fAccess (wd x.2.2) 0)) s
  let s := s.cutPhases w (s.parts.map (·.1))
  let crosses : Msg → Bool := fun m => m.src.w != m.dst.w && (m.src.w = w || m.dst.w = w)
  let gone := s.net.filter crosses
  gone.foldl (fun (s : State) (m : Msg) =>
    match m.tag with
    | none => s
    | some t => s.modCore (if m.isReturn then m.dst else m.src) (fun k => k.countSent t.lslot 0 1))
    { s with net := s.net.filter (fun m => !crosses m) }

/-- LINK_FAILURE (16 R458): below 64, wafer o.i loses its last path; above, a failing link held message o.i − 64, and another path
survives (log 29). -/
def execLinkFailure (o : EvIdx) (s : State) : Out :=
  .next (if o.i < 64 then s.waferLost o.i
    else match s.net[o.i - 64]? with
      | none => s
      | some m => if m.src.w != m.dst.w then s.lostOnLink (o.i - 64) m else s)

/-! ### The fabric capability (16 R453) -/

/-- FABRIC_CAPABILITY_COMMAND: the wafers present, a partition's registers, and a VF's permission, which ALLOW follows while the VF
is switched in. -/
def execFabricCapabilityCommand (o : EvFabric) (s : State) : Out :=
  .next (match s.part o.p with
    | none => s
    | some x =>
      let v := tblGet { part := o.p, vmid := x.vmid, fabric := false, heldRecs := [] } s.pkg.vfs o.vf
      let s : State := { s with pkg := { s.pkg with wafers := o.wafers.map (· % 64),
                                                    vfs := tblSet s.pkg.vfs o.vf { v with fabric := o.permit } } }
      overCores s (fun s c => s.modCfg c (fun k =>
        let allow := if x.vf = o.vf then o.permit else bitAt k.fabcfg 14
        { k with fabcfg := wd (o.root % 64 * 65536 + b01 o.grp * 2 ^ 15 + b01 allow * 2 ^ 14 + fld k.fabcfg 5 0),
                 fabexp := wd (o.exp % 2 ^ 64), fabslots := wd (o.join % 2 ^ 21) })) (s.ownCores o.p))

end Sys2Proof.Machine
end

