-- ==== Sys2Proof/Machine/Queries.lean ====
section
/-! DEFINITION. Queries of the core and of the strand's place: WHERE, LNUM, CREWINFO, FEAT, GANGINFO, TSC (07 R237; 10 R343;
12 R386). -/
namespace Sys2Proof.Machine
open Sys2Proof

/-- A query writes g[x] without a memory event; it waits only for a LOAD-pending g[x] (05 R154). -/
def State.queryOp (s : State) (o : OpX) (f : State → CoreId → Strand → Word) : State :=
  s.issue o.g none [] [] (some o.x) (fun c n st _ commit s => (commit s).writeBack c n st (some o.x) (f s c st))

def execWhereAt (o : OpX) (s : State) : Out := .next (s.queryOp o (fun _ c _ => wd (coreBase c)))
def execLnum (o : OpX) (s : State) : Out := .next (s.queryOp o (fun s c _ => wd ((s.core c).cfg.ln % 65536)))
def execCrewinfo (o : OpX) (s : State) : Out :=
  .next (s.queryOp o (fun _ _ st =>
    wd (st.cln * 65536 + fld st.crew 13 8 * 256 + b01 st.spawned * 32 + st.member)))
def execFeat (o : OpX) (s : State) : Out := .next (s.queryOp o (fun s c _ => (s.core c).featWord))
/-- GANGINFO (10 R343): OLN is the LN of the core at the gang's corner. -/
def execGanginfo (o : OpX) (s : State) : Out :=
  .next (s.queryOp o (fun s c st =>
    let corner : CoreId := { w := c.w, x := fld st.gang 23 16, y := fld st.gang 31 24 }
    let gw := fld st.gang 11 8 + 1
    wd (fld st.task 23 0 * 2 ^ 40 + (s.core corner).cfg.ln % 65536 * 2 ^ 24 +
      (fld st.gang 7 4 * gw + fld st.gang 3 0) * 256 + (gw * (fld st.gang 15 12 + 1) - 1))))
/-- TSC (12 R386): Now() when the write is made. -/
def execTsc (o : OpX) (s : State) : Out := .next (s.queryOp o (fun s c _ => wd (s.now c)))

end Sys2Proof.Machine
end

