-- ==== Sys2Proof/Machine/Special.lean ====
section
/-! DEFINITION. MFS and MTS: the special registers of a strand (01 R23 to R29; 04 R139 to R141). -/
namespace Sys2Proof.Machine
open Sys2Proof

/-- What a loop register number reads (01 R23). -/
def Strand.loopWord (st : Strand) (f : Loop → Word) (i : Nat) : Word := f (st.loops.getD i Loop.reset)

/-- The special register numbered n, as MFS reads it (04 R139). -/
def specialRead (st : Strand) (feat n : Nat) : Word :=
  if n = 0x00 then st.statWord
  else if n = 0x01 then st.fcw.toWord
  else if n = 0x02 then setFld st.jw 2 0 0
  else if n = 0x03 then pixWord st
  else if n = 0x04 then wd (st.sid % 2 ^ 32)
  else if n = 0x05 then wd (st.ldep % 8)
  else if n = 0x06 then wd (predBits st)
  else if n < 0x0C then sextVA (st.loopWord (·.ls) (n - 0x08))
  else if n < 0x10 then sextVA (st.loopWord (·.le) (n - 0x0C))
  else if n < 0x14 then st.loopWord (·.lc) (n - 0x10)
  else if n = 0x18 then wd (st.fmta % 64)
  else if n = 0x19 then wd (st.fmtb % 64)
  else if n = 0x1A then sextVA st.sca
  else if n = 0x1B then sextVA st.scb
  else if n = 0x20 then wd (fld st.task 26 0)
  else if n = 0x21 then wd (fld st.gang 31 0)
  else if n = 0x22 then wd (fld st.crew 13 8 * 256 + fld st.crew 5 0)
  else if n = 0x24 then wd (st.pinc % 2 ^ 13)
  else wd (feat % 32 / 2 * 2 + 1)

/-- MTS's effect on the special register numbered n (04 R141). -/
def specialWrite (st : Strand) (n : Nat) (v : Word) : Strand :=
  if n = 0x00 then { st with stat := { st.stat with wtrap := bitAt v 5, heavy := bitAt v 1 } }
  else if n = 0x01 then { st with fcw := Fcw.ofWord v }
  else if n = 0x02 then { st with jw := setFld v 2 0 0 }
  else if n = 0x06 then (((st.setP 0 (bitAt v 0)).setP 1 (bitAt v 1)).setP 2 (bitAt v 2)).setP 3 (bitAt v 3)
  else st

/-- MFS (04 R139, R140). -/
def execMfs (o : OpDN) (s : State) : Out :=
  .next (s.issue o.g none [] [] (some o.d) (fun c n st _ commit s =>
    (commit s).writeBack c n st (some o.d) (specialRead st (s.core c).cfg.mask o.n)))

/-- MTS (04 R141): the general register is an ordinary source. -/
def execMts (o : OpDN) (s : State) : Out :=
  .next (s.regOp o.g [o.d] none (fun st v => .done (specialWrite st o.n (v0 v)) none Flags.none 0))

end Sys2Proof.Machine
end

