-- ==== Sys2Proof/Machine/Dispatch.lean ====
section
/-! DEFINITION. The meaning of every constructor of `Instr`, one arm each. -/
namespace Sys2Proof.Machine
open Sys2Proof

def exec (i : Instr) (s : State) : Host.Outcome State Fault Refusal :=
  match i with
  | .add o => Sys2Proof.Machine.execAdd o s
  | .sub o => Sys2Proof.Machine.execSub o s
  | .and o => Sys2Proof.Machine.execAnd o s
  | .or o => Sys2Proof.Machine.execOr o s
  | .xor o => Sys2Proof.Machine.execXor o s
  | .shl o => Sys2Proof.Machine.execShl o s
  | .shr o => Sys2Proof.Machine.execShr o s
  | .sar o => Sys2Proof.Machine.execSar o s
  | .mul o => Sys2Proof.Machine.execMul o s
  | .mulhu o => Sys2Proof.Machine.execMulhu o s
  | .min o => Sys2Proof.Machine.execMin o s
  | .max o => Sys2Proof.Machine.execMax o s
  | .mov o => Sys2Proof.Machine.execMov o s
  | .not o => Sys2Proof.Machine.execNot o s
  | .neg o => Sys2Proof.Machine.execNeg o s
  | .lea o => Sys2Proof.Machine.execLea o s
  | .cmpeq o => Sys2Proof.Machine.execCmpeq o s
  | .cmpne o => Sys2Proof.Machine.execCmpne o s
  | .cmplt o => Sys2Proof.Machine.execCmplt o s
  | .cmpltu o => Sys2Proof.Machine.execCmpltu o s
  | .addi o => Sys2Proof.Machine.execAddi o s
  | .shli o => Sys2Proof.Machine.execShli o s
  | .shri o => Sys2Proof.Machine.execShri o s
  | .sari o => Sys2Proof.Machine.execSari o s
  | .cmpeqi o => Sys2Proof.Machine.execCmpeqi o s
  | .cmplti o => Sys2Proof.Machine.execCmplti o s
  | .movi o => Sys2Proof.Machine.execMovi o s
  | .movhi o => Sys2Proof.Machine.execMovhi o s
  | .ld o => Sys2Proof.Machine.execLd o s
  | .ldu o => Sys2Proof.Machine.execLdu o s
  | .st o => Sys2Proof.Machine.execSt o s
  | .lds o => Sys2Proof.Machine.execLds o s
  | .amoSwap o => Sys2Proof.Machine.execAmoSwap o s
  | .amoCas o => Sys2Proof.Machine.execAmoCas o s
  | .amoAdd o => Sys2Proof.Machine.execAmoAdd o s
  | .amoMax o => Sys2Proof.Machine.execAmoMax o s
  | .redAdd o => Sys2Proof.Machine.execRedAdd o s
  | .redAnd o => Sys2Proof.Machine.execRedAnd o s
  | .redOr o => Sys2Proof.Machine.execRedOr o s
  | .redXor o => Sys2Proof.Machine.execRedXor o s
  | .redMin o => Sys2Proof.Machine.execRedMin o s
  | .redMax o => Sys2Proof.Machine.execRedMax o s
  | .redMinu o => Sys2Proof.Machine.execRedMinu o s
  | .redMaxu o => Sys2Proof.Machine.execRedMaxu o s
  | .redFadd o => Sys2Proof.Machine.execRedFadd o s
  | .redFmax o => Sys2Proof.Machine.execRedFmax o s
  | .redFmin o => Sys2Proof.Machine.execRedFmin o s
  | .br o => Sys2Proof.Machine.execBr o s
  | .call o => Sys2Proof.Machine.execCall o s
  | .jr o => Sys2Proof.Machine.execJr o s
  | .jalr o => Sys2Proof.Machine.execJalr o s
  | .loop o => Sys2Proof.Machine.execLoop o s
  | .spawn o => Sys2Proof.Machine.execSpawn o s
  | .waiteq o => Sys2Proof.Machine.execWaiteq o s
  | .waitne o => Sys2Proof.Machine.execWaitne o s
  | .waitge o => Sys2Proof.Machine.execWaitge o s
  | .waitany o => Sys2Proof.Machine.execWaitany o s
  | .fwait o => Sys2Proof.Machine.execFwait o s
  | .ftest o => Sys2Proof.Machine.execFtest o s
  | .fcancel o => Sys2Proof.Machine.execFcancel o s
  | .fstatus o => Sys2Proof.Machine.execFstatus o s
  | .nop o => Sys2Proof.Machine.execNop o s
  | .exit o => Sys2Proof.Machine.execExit o s
  | .join o => Sys2Proof.Machine.execJoin o s
  | .yield o => Sys2Proof.Machine.execYield o s
  | .brkl o => Sys2Proof.Machine.execBrkl o s
  | .fenceCore o => Sys2Proof.Machine.execFenceCore o s
  | .fenceClus o => Sys2Proof.Machine.execFenceClus o s
  | .fencePart o => Sys2Proof.Machine.execFencePart o s
  | .fenceFab o => Sys2Proof.Machine.execFenceFab o s
  | .fenceSys o => Sys2Proof.Machine.execFenceSys o s
  | .trap o => Sys2Proof.Machine.execTrap o s
  | .pin o => Sys2Proof.Machine.execPin o s
  | .unpin o => Sys2Proof.Machine.execUnpin o s
  | .div o => Sys2Proof.Machine.execDiv o s
  | .divu o => Sys2Proof.Machine.execDivu o s
  | .rem o => Sys2Proof.Machine.execRem o s
  | .remu o => Sys2Proof.Machine.execRemu o s
  | .minu o => Sys2Proof.Machine.execMinu o s
  | .maxu o => Sys2Proof.Machine.execMaxu o s
  | .rotl o => Sys2Proof.Machine.execRotl o s
  | .rotr o => Sys2Proof.Machine.execRotr o s
  | .popc o => Sys2Proof.Machine.execPopc o s
  | .clz o => Sys2Proof.Machine.execClz o s
  | .ctz o => Sys2Proof.Machine.execCtz o s
  | .brev o => Sys2Proof.Machine.execBrev o s
  | .bfx o => Sys2Proof.Machine.execBfx o s
  | .bfi o => Sys2Proof.Machine.execBfi o s
  | .bswap o => Sys2Proof.Machine.execBswap o s
  | .sext o => Sys2Proof.Machine.execSext o s
  | .fadd o => Sys2Proof.Machine.execFadd o s
  | .fsub o => Sys2Proof.Machine.execFsub o s
  | .fmul o => Sys2Proof.Machine.execFmul o s
  | .fdiv o => Sys2Proof.Machine.execFdiv o s
  | .fmin o => Sys2Proof.Machine.execFmin o s
  | .fmax o => Sys2Proof.Machine.execFmax o s
  | .fsqrt o => Sys2Proof.Machine.execFsqrt o s
  | .fabs o => Sys2Proof.Machine.execFabs o s
  | .fma o => Sys2Proof.Machine.execFma o s
  | .fms o => Sys2Proof.Machine.execFms o s
  | .fnma o => Sys2Proof.Machine.execFnma o s
  | .fnms o => Sys2Proof.Machine.execFnms o s
  | .fcmpeq o => Sys2Proof.Machine.execFcmpeq o s
  | .fcmplt o => Sys2Proof.Machine.execFcmplt o s
  | .fcmple o => Sys2Proof.Machine.execFcmple o s
  | .fcmpun o => Sys2Proof.Machine.execFcmpun o s
  | .cvtif o => Sys2Proof.Machine.execCvtif o s
  | .cvtfi o => Sys2Proof.Machine.execCvtfi o s
  | .cvtfb o => Sys2Proof.Machine.execCvtfb o s
  | .cvtbf o => Sys2Proof.Machine.execCvtbf o s
  | .cvtf8 o => Sys2Proof.Machine.execCvtf8 o s
  | .cvt8f o => Sys2Proof.Machine.execCvt8f o s
  | .cvtf6 o => Sys2Proof.Machine.execCvtf6 o s
  | .cvt6f o => Sys2Proof.Machine.execCvt6f o s
  | .vntest o => Sys2Proof.Machine.execVntest o s
  | .vnrep o => Sys2Proof.Machine.execVnrep o s
  | .vninfo o => Sys2Proof.Machine.execVninfo o s
  | .fneg o => Sys2Proof.Machine.execFneg o s
  | .fclass o => Sys2Proof.Machine.execFclass o s
  | .mfs o => Sys2Proof.Machine.execMfs o s
  | .mts o => Sys2Proof.Machine.execMts o s
  | .vadd o => Sys2Proof.Machine.execVadd o s
  | .vsub o => Sys2Proof.Machine.execVsub o s
  | .vmul o => Sys2Proof.Machine.execVmul o s
  | .vdiv o => Sys2Proof.Machine.execVdiv o s
  | .vmin o => Sys2Proof.Machine.execVmin o s
  | .vmax o => Sys2Proof.Machine.execVmax o s
  | .vand o => Sys2Proof.Machine.execVand o s
  | .vor o => Sys2Proof.Machine.execVor o s
  | .vxor o => Sys2Proof.Machine.execVxor o s
  | .vshl o => Sys2Proof.Machine.execVshl o s
  | .vshr o => Sys2Proof.Machine.execVshr o s
  | .vsar o => Sys2Proof.Machine.execVsar o s
  | .vfma o => Sys2Proof.Machine.execVfma o s
  | .vfms o => Sys2Proof.Machine.execVfms o s
  | .vabsd o => Sys2Proof.Machine.execVabsd o s
  | .vsqd o => Sys2Proof.Machine.execVsqd o s
  | .vadds o => Sys2Proof.Machine.execVadds o s
  | .vmuls o => Sys2Proof.Machine.execVmuls o s
  | .vmaxs o => Sys2Proof.Machine.execVmaxs o s
  | .vsplat o => Sys2Proof.Machine.execVsplat o s
  | .vcmpeq o => Sys2Proof.Machine.execVcmpeq o s
  | .vcmpne o => Sys2Proof.Machine.execVcmpne o s
  | .vcmplt o => Sys2Proof.Machine.execVcmplt o s
  | .vcmple o => Sys2Proof.Machine.execVcmple o s
  | .vsel o => Sys2Proof.Machine.execVsel o s
  | .vmov o => Sys2Proof.Machine.execVmov o s
  | .vneg o => Sys2Proof.Machine.execVneg o s
  | .vabs o => Sys2Proof.Machine.execVabs o s
  | .vredsum o => Sys2Proof.Machine.execVredsum o s
  | .vredmax o => Sys2Proof.Machine.execVredmax o s
  | .vredmin o => Sys2Proof.Machine.execVredmin o s
  | .vredarg o => Sys2Proof.Machine.execVredarg o s
  | .vcvt o => Sys2Proof.Machine.execVcvt o s
  | .vscale o => Sys2Proof.Machine.execVscale o s
  | .viota o => Sys2Proof.Machine.execViota o s
  | .vcomp o => Sys2Proof.Machine.execVcomp o s
  | .vld o => Sys2Proof.Machine.execVld o s
  | .vst o => Sys2Proof.Machine.execVst o s
  | .vlds o => Sys2Proof.Machine.execVlds o s
  | .vsts o => Sys2Proof.Machine.execVsts o s
  | .vldb o => Sys2Proof.Machine.execVldb o s
  | .vstb o => Sys2Proof.Machine.execVstb o s
  | .vgath o => Sys2Proof.Machine.execVgath o s
  | .vscat o => Sys2Proof.Machine.execVscat o s
  | .vscatadd o => Sys2Proof.Machine.execVscatadd o s
  | .vscatmax o => Sys2Proof.Machine.execVscatmax o s
  | .vtopkins o => Sys2Proof.Machine.execVtopkins o s
  | .vtopkthr o => Sys2Proof.Machine.execVtopkthr o s
  | .vnmask o => Sys2Proof.Machine.execVnmask o s
  | .vnrepv o => Sys2Proof.Machine.execVnrepv o s
  | .vbind o => Sys2Proof.Machine.execVbind o s
  | .vfree o => Sys2Proof.Machine.execVfree o s
  | .vsetl o => Sys2Proof.Machine.execVsetl o s
  | .vgetl o => Sys2Proof.Machine.execVgetl o s
  | .vwait o => Sys2Proof.Machine.execVwait o s
  | .vpixrd o => Sys2Proof.Machine.execVpixrd o s
  | .rclaim o => Sys2Proof.Machine.execRclaim o s
  | .rpub o => Sys2Proof.Machine.execRpub o s
  | .rpop o => Sys2Proof.Machine.execRpop o s
  | .rpeek o => Sys2Proof.Machine.execRpeek o s
  | .rwaitf o => Sys2Proof.Machine.execRwaitf o s
  | .rwaite o => Sys2Proof.Machine.execRwaite o s
  | .rstat o => Sys2Proof.Machine.execRstat o s
  | .rcfg o => Sys2Proof.Machine.execRcfg o s
  | .rapp o => Sys2Proof.Machine.execRapp o s
  | .rsteal o => Sys2Proof.Machine.execRsteal o s
  | .rpopt o => Sys2Proof.Machine.execRpopt o s
  | .rcred o => Sys2Proof.Machine.execRcred o s
  | .qbind o => Sys2Proof.Machine.execQbind o s
  | .qfree o => Sys2Proof.Machine.execQfree o s
  | .copy o => Sys2Proof.Machine.execCopy o s
  | .bcset o => Sys2Proof.Machine.execBcset o s
  | .bcwait o => Sys2Proof.Machine.execBcwait o s
  | .mtask o => Sys2Proof.Machine.execMtask o s
  | .mprog o => Sys2Proof.Machine.execMprog o s
  | .mthr o => Sys2Proof.Machine.execMthr o s
  | .mquery o => Sys2Proof.Machine.execMquery o s
  | .barc o => Sys2Proof.Machine.execBarc o s
  | .barg o => Sys2Proof.Machine.execBarg o s
  | .barga o => Sys2Proof.Machine.execBarga o s
  | .bargw o => Sys2Proof.Machine.execBargw o s
  | .wsum o => Sys2Proof.Machine.execWsum o s
  | .wmax o => Sys2Proof.Machine.execWmax o s
  | .wmin o => Sys2Proof.Machine.execWmin o s
  | .wor o => Sys2Proof.Machine.execWor o s
  | .launch o => Sys2Proof.Machine.execLaunch o s
  | .lstat o => Sys2Proof.Machine.execLstat o s
  | .tsc o => Sys2Proof.Machine.execTsc o s
  | .whereAt o => Sys2Proof.Machine.execWhereAt o s
  | .lnum o => Sys2Proof.Machine.execLnum o s
  | .ganginfo o => Sys2Proof.Machine.execGanginfo o s
  | .crewinfo o => Sys2Proof.Machine.execCrewinfo o s
  | .feat o => Sys2Proof.Machine.execFeat o s
  | .seam o => Sys2Proof.Machine.execSeam o s
  | .mfsp o => Sys2Proof.Machine.execMfsp o s
  | .mtsp o => Sys2Proof.Machine.execMtsp o s
  | .vshareWrite o => Sys2Proof.Machine.execVshareWrite o s
  | .dctlInstall o => Sys2Proof.Machine.execDctlInstall o s
  | .logctlInstall o => Sys2Proof.Machine.execLogctlInstall o s
  | .logcmdSeam o => Sys2Proof.Machine.execLogcmdSeam o s
  | .invr o => Sys2Proof.Machine.execInvr o s
  | .inva o => Sys2Proof.Machine.execInva o s
  | .icinv o => Sys2Proof.Machine.execIcinv o s
  | .trapret o => Sys2Proof.Machine.execTrapret o s
  | .reinj o => Sys2Proof.Machine.execReinj o s
  | .ctxsave o => Sys2Proof.Machine.execCtxsave o s
  | .ctxload o => Sys2Proof.Machine.execCtxload o s
  | .quiesceHold o => Sys2Proof.Machine.execQuiesceHold o s
  | .partset o => Sys2Proof.Machine.execPartset o s
  | .wswitch o => Sys2Proof.Machine.execWswitch o s
  | .halt o => Sys2Proof.Machine.execHalt o s
  | .ctrrd o => Sys2Proof.Machine.execCtrrd o s
  | .ctrcfg o => Sys2Proof.Machine.execCtrcfg o s
  | .ctrsave o => Sys2Proof.Machine.execCtrsave o s
  | .ctrload o => Sys2Proof.Machine.execCtrload o s
  | .mirset o => Sys2Proof.Machine.execMirset o s
  | .mirsync o => Sys2Proof.Machine.execMirsync o s
  | .retire o => Sys2Proof.Machine.execRetire o s
  | .dctlTeardown o => Sys2Proof.Machine.execDctlTeardown o s
  | .logctlRemove o => Sys2Proof.Machine.execLogctlRemove o s
  | .logcmdUnpick o => Sys2Proof.Machine.execLogcmdUnpick o s
  | .logcmdForget o => Sys2Proof.Machine.execLogcmdForget o s
  | .logcmdResume o => Sys2Proof.Machine.execLogcmdResume o s
  | .quiesceRelease o => Sys2Proof.Machine.execQuiesceRelease o s
  | .partsetDissolve o => Sys2Proof.Machine.execPartsetDissolve o s
  | .vectorGrant o => Sys2Proof.Machine.execVectorGrant o s
  | .vectorComplete o => Sys2Proof.Machine.execVectorComplete o s
  | .barrelTurn o => Sys2Proof.Machine.execBarrelTurn o s
  | .breakPoint o => Sys2Proof.Machine.execBreakPoint o s
  | .coatDeparture o => Sys2Proof.Machine.execCoatDeparture o s
  | .coatArrival o => Sys2Proof.Machine.execCoatArrival o s
  | .crewDescriptorReply o => Sys2Proof.Machine.execCrewDescriptorReply o s
  | .annexReply o => Sys2Proof.Machine.execAnnexReply o s
  | .admissionAck o => Sys2Proof.Machine.execAdmissionAck o s
  | .bounceLanding o => Sys2Proof.Machine.execBounceLanding o s
  | .bounceBackoffExpiry o => Sys2Proof.Machine.execBounceBackoffExpiry o s
  | .coatForward o => Sys2Proof.Machine.execCoatForward o s
  | .ldsReply o => Sys2Proof.Machine.execLdsReply o s
  | .remoteReadRequest o => Sys2Proof.Machine.execRemoteReadRequest o s
  | .remoteReply o => Sys2Proof.Machine.execRemoteReply o s
  | .postedWriteArrival o => Sys2Proof.Machine.execPostedWriteArrival o s
  | .redArrival o => Sys2Proof.Machine.execRedArrival o s
  | .mergeGroupTimeout o => Sys2Proof.Machine.execMergeGroupTimeout o s
  | .amoRequest o => Sys2Proof.Machine.execAmoRequest o s
  | .waitRequest o => Sys2Proof.Machine.execWaitRequest o s
  | .waiterResendTimer o => Sys2Proof.Machine.execWaiterResendTimer o s
  | .waitWithdrawal o => Sys2Proof.Machine.execWaitWithdrawal o s
  | .blockLimitExpiry o => Sys2Proof.Machine.execBlockLimitExpiry o s
  | .postAck o => Sys2Proof.Machine.execPostAck o s
  | .postRefusal o => Sys2Proof.Machine.execPostRefusal o s
  | .requestResendTimer o => Sys2Proof.Machine.execRequestResendTimer o s
  | .boardQuery o => Sys2Proof.Machine.execBoardQuery o s
  | .boardReply o => Sys2Proof.Machine.execBoardReply o s
  | .cancelRequest o => Sys2Proof.Machine.execCancelRequest o s
  | .mirrorUpdate o => Sys2Proof.Machine.execMirrorUpdate o s
  | .appendArrival o => Sys2Proof.Machine.execAppendArrival o s
  | .appendReply o => Sys2Proof.Machine.execAppendReply o s
  | .creditRequest o => Sys2Proof.Machine.execCreditRequest o s
  | .creditGrant o => Sys2Proof.Machine.execCreditGrant o s
  | .creditResendTimer o => Sys2Proof.Machine.execCreditResendTimer o s
  | .creditReturn o => Sys2Proof.Machine.execCreditReturn o s
  | .stealRequest o => Sys2Proof.Machine.execStealRequest o s
  | .stealReply o => Sys2Proof.Machine.execStealReply o s
  | .dependenceResolved o => Sys2Proof.Machine.execDependenceResolved o s
  | .taskIssue o => Sys2Proof.Machine.execTaskIssue o s
  | .copyChunkSend o => Sys2Proof.Machine.execCopyChunkSend o s
  | .copyChunkArrival o => Sys2Proof.Machine.execCopyChunkArrival o s
  | .copyChunkRefused o => Sys2Proof.Machine.execCopyChunkRefused o s
  | .copyResumeNotice o => Sys2Proof.Machine.execCopyResumeNotice o s
  | .copyPendingTimeout o => Sys2Proof.Machine.execCopyPendingTimeout o s
  | .copyDone o => Sys2Proof.Machine.execCopyDone o s
  | .matrixStep o => Sys2Proof.Machine.execMatrixStep o s
  | .taskDone o => Sys2Proof.Machine.execTaskDone o s
  | .scoreLaneTake o => Sys2Proof.Machine.execScoreLaneTake o s
  | .scoreBlock o => Sys2Proof.Machine.execScoreBlock o s
  | .thetaRefresh o => Sys2Proof.Machine.execThetaRefresh o s
  | .crewArrive o => Sys2Proof.Machine.execCrewArrive o s
  | .crewExitNotice o => Sys2Proof.Machine.execCrewExitNotice o s
  | .crewCompletion o => Sys2Proof.Machine.execCrewCompletion o s
  | .crewCompletionAck o => Sys2Proof.Machine.execCrewCompletionAck o s
  | .tscSync o => Sys2Proof.Machine.execTscSync o s
  | .invalidationDelivery o => Sys2Proof.Machine.execInvalidationDelivery o s
  | .invalidationSweep o => Sys2Proof.Machine.execInvalidationSweep o s
  | .launchStop o => Sys2Proof.Machine.execLaunchStop o s
  | .descriptorDrop o => Sys2Proof.Machine.execDescriptorDrop o s
  | .mapBroadcast o => Sys2Proof.Machine.execMapBroadcast o s
  | .countingSweep o => Sys2Proof.Machine.execCountingSweep o s
  | .gangPhaseComplete o => Sys2Proof.Machine.execGangPhaseComplete o s
  | .enqueue o => Sys2Proof.Machine.execEnqueue o s
  | .doorbellLaunch o => Sys2Proof.Machine.execDoorbellLaunch o s
  | .launchDepResolved o => Sys2Proof.Machine.execLaunchDepResolved o s
  | .launchAgeing o => Sys2Proof.Machine.execLaunchAgeing o s
  | .launchSelect o => Sys2Proof.Machine.execLaunchSelect o s
  | .gangPlacement o => Sys2Proof.Machine.execGangPlacement o s
  | .preemptVictims o => Sys2Proof.Machine.execPreemptVictims o s
  | .gangSave o => Sys2Proof.Machine.execGangSave o s
  | .gangStart o => Sys2Proof.Machine.execGangStart o s
  | .preemptionStop o => Sys2Proof.Machine.execPreemptionStop o s
  | .crewEnd o => Sys2Proof.Machine.execCrewEnd o s
  | .faultRecordArrival o => Sys2Proof.Machine.execFaultRecordArrival o s
  | .launchComplete o => Sys2Proof.Machine.execLaunchComplete o s
  | .walkComplete o => Sys2Proof.Machine.execWalkComplete o s
  | .walkRetryTimer o => Sys2Proof.Machine.execWalkRetryTimer o s
  | .seamOpen o => Sys2Proof.Machine.execSeamOpen o s
  | .frayNotice o => Sys2Proof.Machine.execFrayNotice o s
  | .debugStop o => Sys2Proof.Machine.execDebugStop o s
  | .debugStopComplete o => Sys2Proof.Machine.execDebugStopComplete o s
  | .debugResume o => Sys2Proof.Machine.execDebugResume o s
  | .controlRegisterWrite o => Sys2Proof.Machine.execControlRegisterWrite o s
  | .dumpWrite o => Sys2Proof.Machine.execDumpWrite o s
  | .hostRead o => Sys2Proof.Machine.execHostRead o s
  | .hostWrite o => Sys2Proof.Machine.execHostWrite o s
  | .hostAtomic o => Sys2Proof.Machine.execHostAtomic o s
  | .boot o => Sys2Proof.Machine.execBoot o s
  | .firmwareLoad o => Sys2Proof.Machine.execFirmwareLoad o s
  | .attestation o => Sys2Proof.Machine.execAttestation o s
  | .lifetimeWrite o => Sys2Proof.Machine.execLifetimeWrite o s
  | .powerCheck o => Sys2Proof.Machine.execPowerCheck o s
  | .checkpointCommand o => Sys2Proof.Machine.execCheckpointCommand o s
  | .checkpointRestore o => Sys2Proof.Machine.execCheckpointRestore o s
  | .coreLoss o => Sys2Proof.Machine.execCoreLoss o s
  | .linkFailure o => Sys2Proof.Machine.execLinkFailure o s
  | .linkCrcRetry o => Sys2Proof.Machine.execLinkCrcRetry o s
  | .fabricResult o => Sys2Proof.Machine.execFabricResult o s
  | .gangArrive o => Sys2Proof.Machine.execGangArrive o s
  | .proxyRequest o => Sys2Proof.Machine.execProxyRequest o s
  | .fabricPartialArrival o => Sys2Proof.Machine.execFabricPartialArrival o s
  | .abagalLinkDown o => Sys2Proof.Machine.execAbagalLinkDown o s
  | .orderlyShutdown o => Sys2Proof.Machine.execOrderlyShutdown o s
  | .fabricCapabilityCommand o => Sys2Proof.Machine.execFabricCapabilityCommand o s

end Sys2Proof.Machine
end

