-- ==== Sys2Proof/Machine/Turns.lean ====
section
/-! DEFINITION. What a step does: the passing of a core cycle, the turn of the current strand with the fetch of its chain, and one
step of the device that no strand issues (00 R2, R9, R16; 02 R57 to R61; 05 R161; 06 R193; 07 R208 to R211, R229; 14 R430; 15 R446; log 2). -/
namespace Sys2Proof.Machine
open Sys2Proof

/-- The next state of a meaning. -/
def after (s : State) (o : Out) : State := match o with | .next t => t | _ => s

/-! ### A core cycle -/

/-- Times kept in core cycles stand still with their core's clock, and block limits on a core that is stopped (00 R2; 14 R430; 15 R445). -/
def Core.holdLimits (k : Core) : Core :=
  { k with slots := k.slots.map (fun e => (e.1, { e.2 with deadline := e.2.deadline.map (· + 1) })) }
def Core.holdTimes (k : Core) : Core :=
  { k.holdLimits with
    departures := k.departures.map (fun d => (d.1, { d.2 with ready := d.2.ready + 1 })),
    credits := k.credits.map (fun e => (e.1, { e.2 with resend := e.2.resend.map (· + 1) })),
    merges := k.merges.map (fun g => { g with opened := g.opened + 1, lastAt := g.lastAt + 1 }) }
/-- The base tick that ends with this cycle (00 R2). -/
def State.tickEdge (s : State) : Bool := s.cycle * 10 / 36 != (s.cycle + 1) * 10 / 36
/-- A core that is ahead holds its count for one tick (12 R385). -/
def Core.holdTick (k : Core) : Core := if k.tscHold then { k with tscOff := k.tscOff - 1, tscHold := false } else k
/-- A core whose barrels turn. -/
def Core.turns (k : Core) : Bool := k.live && !k.cfg.halted
/-- One core at the end of a core cycle of the unthrottled clock. -/
def State.coreTick (s : State) (c : CoreId) (k : Core) : Core :=
  let k := if !s.clocked c then k.holdTimes
    else
      let k := if k.turns then s.coreTurn c k else k
      if k.dbg.stop then k.holdLimits else k
  if s.tickEdge then k.holdTick else k
/-- The wheel nodes of a partition advance together, with its slowest field (14 R430). -/
def State.wheelClocked (s : State) (x : Partition) : Bool :=
  let slow := x.live.foldl (fun (b : Option Nat) c =>
    match b with
    | none => some (fieldNo c)
    | some f => if s.rate (fieldNo c) < s.rate f then some (fieldNo c) else b) none
  match slow with | none => true | some f => s.fieldClocked f
/-- A refused request waits in core cycles of its requester. -/
def State.holdResend (s : State) (m : Msg) : Msg :=
  match m.body with
  | .resend ref r dst ready full => if s.clocked m.dst then m else { m with body := .resend ref r dst (ready + 1) full }
  | _ => m
/-- The strands whose turn a core cycle brings, barrel 0 first (07 R208; 09 R280). -/
def State.coreTurns (s : State) (c : CoreId) (k : Core) : List (CoreId × Nat) :=
  if k.turns && s.clocked c then
    ((k.slots.filter (fun e => e.1 = s.turnSlot c)) ++ (k.slots.filter (fun e => e.1 = 16 + s.turnSlot c))).map (fun e => (c, e.1))
  else []
/-- A core cycle ends and the next begins: its trace records are written and every turn of it is counted, time passes, and the turns of the
new cycle stand in line. Row misses and Dezal flits of the cycle are free values (log 69). -/
def State.tick (s : State) : State :=
  let watched := (s.cores.filter (fun e => e.2.turns && s.clocked (coreOfKey e.1) && e.2.dbg.ctr.toList.any (fun v => bitAt v.2 63))).map
    (fun e => coreOfKey e.1)
  let traced := (s.cores.filter (fun e => s.clocked (coreOfKey e.1) && !e.2.dbg.trcPend.isEmpty)).map (fun e => coreOfKey e.1)
  let s := overCores s State.flushTrace traced
  let t : State := { s with
    cores := s.cores.map (fun e => (e.1, s.coreTick (coreOfKey e.1) e.2)), net := s.net.map s.holdResend,
    parts := s.parts.map (fun e => (e.1, if s.wheelClocked e.2 then e.2 else { e.2 with wheelNext := e.2.wheelNext + 1 })),
    cycle := s.cycle + 1 }
  let t := overCores t (fun t c => ((t.perf c 0x01 1).perf c 0x0D (Config.rowMisses s.cycle (coreKey c))).perf c 0x0F
    (Config.dezalFlits s.cycle (coreKey c))) watched
  { t with turns := (t.cores.map (fun e => t.coreTurns (coreOfKey e.1) e.2)).flatten }

/-! ### Fetch (02 R57, R59, R60; 05 R161) -/

inductive Fetched where
  | ok (hs : List Nat) (s : State)
  | wait (s : State)
  | fault (f : FaultInfo) (s : State)

/-- A halfword with 0b1111 in its top bits is a prefix (02 R51). -/
def isPrefixWord (h : Nat) : Bool := h % 65536 / 4096 = 15
/-- The halfwords of the chain at PC, up to its instruction word or a fifth prefix. -/
def State.fetch : Nat → State → CoreId → Nat → Strand → List Nat → Fetched
  | 0, s, _, _, _, acc => .ok acc s
  | f + 1, s, c, n, st, acc =>
    let va := st.pc + wd (2 * acc.length)
    match s.xlate (scalarCtx c n st) va kExec with
    | .wait s => .wait s
    | .fault e s => .fault e s
    | .ok pa leaf s =>
      match s.checkPa c st.stat.priv .va 0 pa leaf s with
      | .wait s => .wait s
      | .fault e s => .fault e s
      | .ok pa leaf s =>
        match s.readPa (s.nearPa c leaf pa) 2 leaf false with
        | .fault e s => .fault e s
        | .ok b s =>
          if isPrefixWord (ofLe b) then State.fetch f s c n st (acc ++ [ofLe b]) else .ok (acc ++ [ofLe b]) s

/-! ### Issue of a fresh instruction -/

/-- Instructions that name progress points (06 R201; 08 R272). -/
def progresses : Instr → Bool
  | .vld _ | .vst _ | .vlds _ | .vsts _ | .vldb _ | .vstb _ | .vgath _ | .vscat _ | .vscatadd _ | .vscatmax _ => true
  | _ => false
/-- WIN and PINC count an issued instruction (07 R229). -/
def Detector.passed (d : Detector) : Detector :=
  if d.rev = 0 then d else if d.win + 1 ≥ 64 then { d with rev := 0, win := 0 } else { d with win := d.win + 1 }
/-- A strand that issues an instruction: counted by the detector, PIX cleared unless the instruction may continue from it (06 R201),
and BRKSKIP spent (06 R196). -/
def Strand.issued (st : Strand) (i : Instr) : Strand :=
  { st with det := st.det.passed, pinc := st.pinc - 1, pix := if progresses i && st.pc = st.pixPc then st.pix else none, brkskip := false }
/-- The slot issues in this core cycle (07 R210). -/
def State.markTurn (s : State) (c : CoreId) (n : Nat) : State := s.modCore c (fun k => { k with turned := setAdd k.turned n })

/-- What a turn comes to: an instruction issues, or the turn has no more to do. -/
inductive Turn where
  | run (i : Instr) (s : State)
  | idle (s : State)

/-- A chain in hand: a breakpoint, ILLEGAL, or issue (02 R61; 15 R446). -/
def State.issueChain (s : State) (c : CoreId) (n : Nat) (st : Strand) (hs : List Nat) : Turn :=
  let st : Strand := { st with chain := hs }
  match (if st.brkskip then none else (s.core c).breakpoint st) with
  | some b => .idle (s.takeTrap c n st { kind := 3, pc := st.pc, info := #v[wd b, 0, 0, 0] })
  | none =>
    match decodeHalves hs with
    | .error e => .idle ((s.markTurn c n).takeFault c n st (fIllegal e.code st.pc (chainInfo hs)))
    | .ok (i, _) => .run i (((s.markTurn c n).putStrand c n (st.issued i)).perf c 0x02 1)

/-- A fresh instruction of a strand; a fetch that waits for a walk or an invalidation holds it with class WAIT-MEM (00 R10; 11 R364). -/
def State.issueFresh (s : State) (c : CoreId) (n : Nat) (st : Strand) : Turn :=
  match State.fetch 5 s c n st [] with
  | .wait s => .idle (s.putStrand c n { st with run := .blocked .mem, chain := [] })
  | .fault f s => .idle ((s.markTurn c n).takeFault c n st f)
  | .ok hs s => s.issueChain c n { st with run := .ready } hs

/-- An instruction under way tries its condition again (00 R16); one that is not fetched yet is fetched. -/
def State.reissue (s : State) (c : CoreId) (n : Nat) (st : Strand) : Turn :=
  if st.chain.isEmpty then s.issueFresh c n st
  else match decodeHalves st.chain with
    | .ok (i, _) => .run i (s.markTurn c n)
    | .error _ => .idle s

/-- The turn of a strand on a core that is stopped: what stands between two boundaries goes on to the next one, and waits are taken back
(15 R445; 05 R183). -/
def State.stoppedTurn (s : State) (c : CoreId) (n : Nat) (st : Strand) : Turn :=
  match st.run with
  | .arrived r => .idle (s.arrive c n st r)
  | .await _ _ => .idle (s.withdraw c n st)
  | .blocked _ => if st.midHold then s.reissue c n st else .idle s
  | _ => .idle s

/-- The turn of a strand that stands in a slot (06 R192, R193; 07 R210). A WATCH trap takes a wait back before it is taken (05 R183). -/
def State.turnOf (s : State) (c : CoreId) (n : Nat) (st : Strand) : Turn :=
  if (s.core c).cfg.halted then .idle s
  else if (s.core c).dbg.stop then s.stoppedTurn c n st
  else match st.run, st.trap with
    | .stopped _, _ => .idle s
    | .faulted, _ => .idle s
    | .departing _ _, _ => .idle s
    | .arrived r, _ => .idle (s.arrive c n st r)
    | .await _ _, some _ => .idle (s.withdraw c n st)
    | .await _ r, none => if isHost r.pa then .idle (s.perform c n st r) else .idle s
    | .blocked _, none => if s.frozenLog c st && !st.midHold then .idle s else s.reissue c n st
    | .ready, none => if s.frozenLog c st then .idle s else s.issueFresh c n st
    | _, some t =>
      if t.kind = 5 then .idle (s.standStill c n st)
      else if t.kind = 4 then
        (if st.hold.isSome || st.midBulk then s.reissue c n st else .idle (s.takeTrap c n st { t with pc := st.pc }))
      else .idle (s.takeTrap c n st t)

/-- The turn of the current strand. -/
def State.turnNow (s : State) : Turn :=
  match s.curStrand with
  | none => .idle s
  | some (c, n, st) => s.turnOf c n st

/-! ### Steps that no strand issues -/

/-- The arrival of the message at a place of the network, or the time of a resend. -/
def State.deliver (s : State) (i : Nat) : Out :=
  match s.net[i]? with
  | none => .next s
  | some m =>
    if (s.core m.dst).cfg.fwdValid && !m.isReturn then execCoatForward ⟨i⟩ s
    else match m.body with
      | .coat _ => execCoatArrival ⟨i⟩ s
      | .bounced _ => execBounceLanding ⟨i⟩ s
      | .admitted _ => execAdmissionAck ⟨i⟩ s
      | .descReq _ _ => execRemoteReadRequest ⟨i⟩ s
      | .annexReq _ _ => execRemoteReadRequest ⟨i⟩ s
      | .descReply _ _ _ => execCrewDescriptorReply ⟨i⟩ s
      | .annexReply _ => execAnnexReply ⟨i⟩ s
      | .request _ _ =>
        if isReadReq m.body then execRemoteReadRequest ⟨i⟩ s
        else if isAmoReq m.body then execAmoRequest ⟨i⟩ s else execWaitRequest ⟨i⟩ s
      | .reply _ r _ => (match r.cont with | .lds _ _ => execLdsReply ⟨i⟩ s | _ => execRemoteReply ⟨i⟩ s)
      | .resend _ _ _ _ full => if full then execWaiterResendTimer ⟨i⟩ s else execRequestResendTimer ⟨i⟩ s
      | .withdraw _ _ => execWaitWithdrawal ⟨i⟩ s
      | .post _ _ _ _ _ _ => if isPostedRed m.body then execRedArrival ⟨i⟩ s else execPostedWriteArrival ⟨i⟩ s
      | .postAck _ _ _ => execPostAck ⟨i⟩ s
      | .postNak _ _ _ => execPostRefusal ⟨i⟩ s
      | .boardQuery _ _ _ => execBoardQuery ⟨i⟩ s
      | .boardReply _ _ _ _ _ => execBoardReply ⟨i⟩ s
      | .cancel _ => execCancelRequest ⟨i⟩ s
      | .mirrorUpdate _ _ _ _ => execMirrorUpdate ⟨i⟩ s
      | .mirrorAck _ => execMirrorUpdate ⟨i⟩ s
      | .append _ _ _ _ _ => execAppendArrival ⟨i⟩ s
      | .appendReply _ _ _ _ => execAppendReply ⟨i⟩ s
      | .creditReq _ _ _ => execCreditRequest ⟨i⟩ s
      | .creditGrant _ _ _ _ => execCreditGrant ⟨i⟩ s
      | .creditReturn _ _ _ _ _ => execCreditReturn ⟨i⟩ s
      | .creditReturned _ _ _ => execRemoteReply ⟨i⟩ s
      | .steal _ _ _ => execStealRequest ⟨i⟩ s
      | .stealReply _ _ => execStealReply ⟨i⟩ s
      | .chunk _ _ _ _ _ _ _ _ _ => execCopyChunkArrival ⟨i⟩ s
      | .chunkAck _ _ => execCopyChunkArrival ⟨i⟩ s
      | .chunkNak _ _ => execCopyChunkRefused ⟨i⟩ s
      | .resumeNotice _ => execCopyResumeNotice ⟨i⟩ s
      | .crewArrive _ _ _ => execCrewArrive ⟨i⟩ s
      | .crewExit _ _ => execCrewExitNotice ⟨i⟩ s
      | .crewDone _ _ _ _ _ => execCrewCompletion ⟨i⟩ s
      | .crewDoneAck _ _ => execCrewCompletionAck ⟨i⟩ s
      | .gangArrive _ _ _ _ _ => execGangArrive ⟨i⟩ s
      | .faultRec _ _ _ => execFaultRecordArrival ⟨i⟩ s
      | .enqueue _ _ _ _ => execEnqueue ⟨i⟩ s
      | .enqueueReply _ _ => execRemoteReply ⟨i⟩ s
      | .fray _ _ => execFrayNotice ⟨i⟩ s
      | .proxyTask _ _ _ => execProxyRequest ⟨i⟩ s
      | .proxyProg _ _ _ _ _ _ => execProxyRequest ⟨i⟩ s
      | .proxyThr _ _ _ => execProxyRequest ⟨i⟩ s
      | .proxyQuery _ _ _ => execProxyRequest ⟨i⟩ s
      | .proxyReply _ _ _ => execRemoteReply ⟨i⟩ s
      | .fabPartial _ _ _ _ => execFabricPartialArrival ⟨i⟩ s
      | .fabResult _ _ _ _ => execFabricResult ⟨i⟩ s

/-- The steps of one core whose clock runs: its strands' journeys and limits, its entries, its vector unit and its engines. -/
def State.coreSteps (s : State) (c : CoreId) (k : Core) : List (State → Out) :=
  if !s.clocked c then [] else
  (k.slots.map (fun e => [execCoatDeparture ⟨c, e.1⟩, execBlockLimitExpiry ⟨c, e.1⟩])).flatten ++
  k.departures.map (fun e => execBounceBackoffExpiry ⟨c, e.1⟩) ++
  (span 0 k.merges.length).map (fun n => execMergeGroupTimeout ⟨c, n⟩) ++
  k.credits.map (fun e => execCreditResendTimer ⟨c, e.1⟩) ++
  [execVectorGrant ⟨c⟩, execVectorComplete ⟨c, 0⟩, execVectorComplete ⟨c, 1⟩, execDebugStopComplete ⟨c⟩] ++
  (k.records.map (fun e => [execDependenceResolved ⟨c, e.1⟩, execTaskIssue ⟨c, e.1⟩, execCopyChunkSend ⟨c, e.1⟩,
    execCopyPendingTimeout ⟨c, e.1⟩, execCopyDone ⟨c, e.1⟩, execMatrixStep ⟨c, e.1⟩, execTaskDone ⟨c, e.1⟩,
    execThetaRefresh ⟨c, e.1⟩])).flatten ++
  (if k.records.isEmpty then [] else
    (span 0 32).map (fun n => execScoreBlock ⟨c, n⟩) ++ (span 0 32).map (fun n => execScoreLaneTake ⟨c, n⟩))

/-- The wheel has turned since the partition's last period (12 R383). -/
def State.wheelDue (s : State) (x : Partition) : Bool := !x.live.isEmpty && x.wheelNext ≤ s.cycle
/-- The steps of a partition: its wheel, its broadcasts and its dispatcher. -/
def State.partSteps (s : State) (p : Nat) (x : Partition) : List (State → Out) :=
  (if s.wheelDue x then [execTscSync ⟨p⟩] else []) ++ [fun (s : State) => (.next (s.lossStep p) : Out)] ++
  [execInvalidationDelivery ⟨p⟩, execInvalidationSweep ⟨p⟩, execMapBroadcast ⟨p⟩, execLaunchSelect ⟨p⟩, execDumpWrite ⟨p⟩] ++
  x.logs.map (fun l => execSeamOpen ⟨p, l.1⟩) ++
  (x.launches.map (fun l => [execLaunchDepResolved ⟨p, l.order⟩, execLaunchAgeing ⟨p, l.order⟩, execGangPlacement ⟨p, l.order⟩,
      execPreemptVictims ⟨p, l.order⟩, execLaunchStop ⟨p, l.order⟩, execLaunchComplete ⟨p, l.order⟩] ++
    (match l.slot with
      | none => []
      | some n => execCountingSweep ⟨p, n⟩ :: (l.gangs.map (fun g => (span 11 21).map (fun ch =>
          execGangPhaseComplete ⟨p, n, g.no, ch⟩))).flatten) ++
    (l.gangs.map (fun g => [execGangStart ⟨p, l.order, g.no⟩, execPreemptionStop ⟨p, l.order, g.no⟩, execGangSave ⟨p, l.order, g.no⟩] ++
      (l.gangCores p g).map (fun c => execCrewEnd ⟨p, l.order, c⟩))).flatten)).flatten

/-- Every step that may be due. -/
def State.candidates (s : State) : List (State → Out) :=
  (span 0 s.net.length).map (fun i s => s.deliver i) ++
  (if s.pkg.hostJobs.isEmpty then [] else [fun (s : State) => (.next s.hostStep : Out)]) ++
  ((span 0 s.walks.length).map (fun i => [execWalkComplete ⟨i⟩, execWalkRetryTimer ⟨i⟩])).flatten ++
  (s.cores.map (fun e => s.coreSteps (coreOfKey e.1) e.2)).flatten ++
  (s.parts.map (fun e => s.partSteps e.1 e.2)).flatten

/-- The first step of a list that changes the state. -/
def firstStep (s : State) : List (State → Out) → State
  | [] => s
  | f :: t => let r := after s (f s); if r = s then firstStep s t else r
/-- One step that no strand issues. The search starts at another place each time, so none is passed over for good. -/
def State.background (s : State) : State :=
  let l := s.candidates
  let k := if l.length = 0 then 0 else s.cycle % l.length
  firstStep s (l.drop k ++ l.take k)

/-! ### The order of turns -/

/-- Ralax runs, so strands may issue (14 R426). -/
def State.isRunning (s : State) : Bool := match s.pkg.stage with | .running => true | _ => false
/-- What the next step does, when the agenda is empty: a turn of this core cycle that is still to come; or the cycle ends, and one step that
no strand issues is made (log 2). So the operations of a cycle's strands reach a unit before a message does, barrel 0's first (09 R280,
R292, R304). -/
def State.nextTurn (s : State) : Turn :=
  if !s.isRunning then .idle { s with cycle := s.cycle + 1 }
  else match s.turns with
    | x :: t => ({ s with turns := t, cur := some x } : State).turnNow
    | [] => .idle s.tick.background

/-! ### A program put where the next step fetches it (log 3) -/

/-- The core and the virtual and physical page of a program that a test or a statement supplies. -/
def fetchCore : CoreId := { w := 0, x := 0, y := 0 }
def fetchVa : Nat := 0x10000
/-- An executable 64 KiB leaf of that page. -/
def fetchTlb : Tlb := { vmid := 0, asid := 0, shift := 16, vpn := 1, leaf := wd (fetchVa + 0x33), iset := 0, mirrors := none }
/-- A strand of context 0 in the state of dispatch, at the program's first byte. -/
def fetchStrand : Strand := { Strand.fresh with pc := wd fetchVa }
/-- The partition of the core, with no invalidation under way. -/
def fetchPart (x : Option Partition) : Partition :=
  match x with
  | none => { Partition.fresh (wholeWafer 0) 0 0 with live := [fetchCore] }
  | some x => { x with invq := [] }
/-- The core is live, owned, in partition 0 and runs; its lookup finds the leaf. -/
def Core.readyToFetch (k : Core) : Core :=
  { k with cfg := { k.cfg with cls := .live, halted := false, fwdValid := false, ln := 0, partcfg := wd (2 ^ 47) },
           slots := tblSet k.slots 0 fetchStrand, micTlb := k.micTlb.set 0 [fetchTlb],
           dbg := { k.dbg with stop := false, bkpt := Vector.replicate 4 (0, 0) } }
/-- The bytes of a chain of halfwords, five of them. -/
def fetchBytes (nbits w : Nat) : List Byte := (((tableHalves nbits w ++ [0, 0, 0, 0]).take 5).map (leBytes 2)).flatten
/-- The instruction's bytes in memory, and strand 0 of core (0, 0) about to fetch them. -/
def State.placeFetch (s : State) (nbits w : Nat) : State :=
  let s := s.modCore fetchCore Core.readyToFetch
  { s with parts := tblSet s.parts 0 (fetchPart (s.part 0)), pkg := { s.pkg with stage := .running },
           mem := memWrite s.mem fetchVa (fetchBytes nbits w),
           ecc := s.ecc.filter (fun g => !(wholeGranules fetchVa 16).contains g),
           soft := s.soft.filter (fun g => !(wholeGranules fetchVa 16).contains g), turns := [(fetchCore, 0)], agenda := [] }

end Sys2Proof.Machine
end

