-- ==== Sys2Proof/Machine/Step.lean ====
section
/-! DEFINITION. One step of the device: the next entry of the agenda, or what the cycle brings (log 2); and a program put where the
next step fetches it (log 3). -/
namespace Sys2Proof.Machine
open Sys2Proof

def step (s : State) : Host.Outcome State Fault Refusal :=
  match s.agenda with
  | i :: t => exec i { s with agenda := t }
  | [] =>
    match s.nextTurn with
    | .run i s => exec i s
    | .idle s => .next s

def State.withFetchWord (s : State) (nbits w : Nat) : State := s.placeFetch nbits w

end Sys2Proof.Machine
end

