-- ==== Sys2Proof/Safety.lean ====
section
/-! DEFINITION. The words the claims use: a strand that has its turn, operands that are final, what a result does to the state, and the
instructions of one shape with the value each computes. -/
namespace Sys2Proof.Machine
open Sys2Proof

/-! ### A strand that has its turn -/

/-- The strand `st` in slot n of core c has the turn, an instruction guarded by g issues, and the registers `rs` are final:
no pending bit (01 R33), and no port of a bound queue (09 R294). -/
structure Ready (s : State) (c : CoreId) (n : Nat) (st : Strand) (g : Guard) (rs : List Reg) : Prop where
  turn : s.curStrand = some (c, n, st)
  guard : guardHolds st g = true
  final : ∀ r ∈ rs, st.pending r = .clear
  noQueue : st.stat.qbound = false

/-- The state after the strand's instruction is complete and changed the strand to `st` and nothing else: the strand stands
after its chain, with the loop-end step (05 R163). -/
def State.done (s : State) (c : CoreId) (n : Nat) (st : Strand) : State := s.putStrand c n st.finish
/-- The same with a result in register d (01 R32). -/
def State.wrote (s : State) (c : CoreId) (n : Nat) (st : Strand) (d : Reg) (v : Word) : State := s.done c n (st.setG d v)

/-! ### Integer instructions by shape (04 R115 to R128) -/

/-- Three registers. -/
def intRRR : List ((OpDAB → Instr) × (Word → Word → Word)) :=
  [(.add, fun a b => a + b), (.sub, fun a b => a - b), (.and, fun a b => a &&& b), (.or, fun a b => a ||| b),
   (.xor, fun a b => a ^^^ b), (.mul, fun a b => a * b),
   (.shl, fun a b => a <<< b.toNat), (.shr, fun a b => a >>> b.toNat), (.sar, fun a b => a.sshiftRight b.toNat),
   (.mulhu, fun a b => BitVec.ofNat 64 (a.toNat * b.toNat / 2 ^ 64)),
   (.min, fun a b => if a.toInt ≤ b.toInt then a else b), (.max, fun a b => if a.toInt ≥ b.toInt then a else b),
   (.minu, fun a b => if a.toNat ≤ b.toNat then a else b), (.maxu, fun a b => if a.toNat ≥ b.toNat then a else b),
   (.div, fun a b => if b = 0 then BitVec.allOnes 64 else BitVec.ofInt 64 (a.toInt.tdiv b.toInt)),
   (.rem, fun a b => if b = 0 then a else BitVec.ofInt 64 (a.toInt.tmod b.toInt)),
   (.divu, fun a b => if b = 0 then BitVec.allOnes 64 else a / b), (.remu, fun a b => if b = 0 then a else a % b),
   (.rotl, fun a b => a.rotateLeft (b.toNat % 64)), (.rotr, fun a b => a.rotateRight (b.toNat % 64)),
   (.vnrep, fun a b => if isVN .f32 (a.toNat % 2 ^ 32) then b else a)]

/-- Two registers. -/
def intRR : List ((OpDA → Instr) × (Word → Word)) :=
  [(.mov, fun a => a), (.not, fun a => ~~~a), (.neg, fun a => -a), (.brev, fun a => a.reverse),
   (.popc, fun a => BitVec.ofNat 64 ((List.range 64).filter (fun i => a.getLsbD i)).length)]

/-- A register and an unsigned count. -/
def intRN : List ((OpDAN → Instr) × (Word → Nat → Word)) :=
  [(.shli, fun a k => a <<< k), (.shri, fun a k => a >>> k), (.sari, fun a k => a.sshiftRight k)]

/-- Compares of two registers (04 R118). -/
def intCmp : List ((OpCmp → Instr) × (Word → Word → Bool)) :=
  [(.cmpeq, fun a b => a == b), (.cmpne, fun a b => a != b), (.cmplt, fun a b => a.slt b), (.cmpltu, fun a b => a.ult b)]

/-- Compares with an immediate (04 R119). -/
def intCmpI : List ((OpCmpI → Instr) × (Word → Word → Bool)) :=
  [(.cmpeqi, fun a i => a == i), (.cmplti, fun a i => a.slt i)]

/-- A compare's predicate: t, or its conjunction with the old value in the AND form (04 R118). -/
def Strand.compared (st : Strand) (p : Fin 4) (conj t : Bool) : Strand := st.setP p (if conj then st.pred p && t else t)

/-! ### Floating-point instructions by shape (04 R129 to R135): the result's bits and the flags of 32-bit operands -/

/-- A pattern as a binary32 value. -/
def f32 (x : Nat) : FVal := decFp .f32 x
/-- The low 32 bits of a register. -/
def Strand.lo32 (st : Strand) (r : Reg) : Nat := (st.reg r).toNat % 2 ^ 32

def fpRRR : List ((OpDAB → Instr) × (Rm → Nat → Nat → Nat × Flags)) :=
  [(.fadd, fun rm x y => fpAdd .f32 rm (f32 x) (f32 y)), (.fsub, fun rm x y => fpSub .f32 rm (f32 x) (f32 y)),
   (.fmul, fun rm x y => fpMul .f32 rm (f32 x) (f32 y)), (.fdiv, fun rm x y => fpDiv .f32 rm (f32 x) (f32 y)),
   (.fmin, fun _ x y => fpMinMax .f32 false x y), (.fmax, fun _ x y => fpMinMax .f32 true x y)]

/-- The fused members by their signs of the product and of the addend. -/
def fpFused : List ((OpDABC → Instr) × Bool × Bool) :=
  [(.fma, false, false), (.fms, false, true), (.fnma, true, false), (.fnms, true, true)]

/-- Two-register members with the rounding mode and FCW.SAT; the last gives the NaRs a result counts. -/
def fpRR : List ((OpDA → Instr) × (Rm → Bool → Nat → Nat × Flags) × (Nat → Nat)) :=
  [(.fsqrt, fun rm _ x => fpSqrt .f32 rm (f32 x), fun _ => 0), (.fabs, fun _ _ x => fpSignOp .f32 false x, fun _ => 0),
   (.fneg, fun _ _ x => fpSignOp .f32 true x, fun _ => 0),
   (.fclass, fun _ _ x => (2 ^ fpClass .f32 (f32 x), Flags.none), fun _ => 0),
   (.cvtfb, fun _ sat x => cvtF32Bf16 sat x, fun _ => 0),
   (.cvtf8, fun _ sat x => taperRound 8 sat (f32 x), fun r => if r = 0x80 then 1 else 0),
   (.cvtf6, fun _ sat x => taperRound 6 sat (f32 x), fun r => if r = 0x20 then 1 else 0)]

def fpCmps : List ((OpCmp → Instr) × FCmp) :=
  [(.fcmpeq, .eq), (.fcmplt, .lt), (.fcmple, .le), (.fcmpun, .un)]

/-- A floating-point result: its value, its flags ORed into FCW and counted with its NaRs (04 R114). -/
def State.fpWrote (s : State) (c : CoreId) (n : Nat) (st : Strand) (d : Reg) (v : Word) (fl : Flags) (nars : Nat) : State :=
  (s.fpEvents c st.lslot fl nars).wrote c n (st.raise fl) d v

/-! ### Accesses of a strand to its own core (05 R143 to R157, R170) -/

/-- The scalar access of `size` bytes resolves to pa on the strand's own core c, in the scratchpad or the DRAM slice, and
nothing holds it back: memory has its canonical form, it is aligned, the page is no MIRROR page, the granule holds no
uncorrectable error, no reduction is being combined on the core, no request is parked there, and no LDS.AQ of the strand is outstanding. s' is the state after
Resolve: the lookup may have filled translation caches. -/
structure Local (s : State) (c : CoreId) (n : Nat) (st : Strand) (form : Form) (base : Word) (off : Int) (kind size : Nat)
    (info : Word) (pa : Nat) (leaf : Word) (s' : State) : Prop where
  memory : Memory.wf s'.mem = true
  resolved : s.resolve (scalarCtx c n st) st form base off kind info = .ok pa leaf s'
  home : homeOf pa = c
  device : isHost pa = false
  plain : inControl (offOf pa) = false
  aligned : pa % size = 0
  noMirror : lfMirror leaf = false
  clean : s'.ecc = []
  noMerge : (s'.core c).merges = []
  noWaiter : (s'.core c).waiters = []
  noAcquire : st.lds = []
  noPost : st.posts = []
  noTrap : st.trap = none

/-- Full-empty bits may be used: the scratchpad, or a page with SYNC (05 R149). -/
def FeAllowed (form : Form) (pa : Nat) (leaf : Word) : Prop :=
  inScratch (offOf pa) = true ∨ (Form.isVa form = true ∧ lfSync leaf = true ∧ lfHost leaf = false)

/-- The bytes of a size code. -/
def bytesOf (z : Size) : Nat := match z with | .b => 1 | .h => 2 | .w => 4 | .d => 8

/-- A number of n bytes as a register holds it, sign-extended. -/
def signedWord (v n : Nat) : Word := BitVec.ofInt 64 (sextInt v (8 * n))

/-- No write queue holds a reduction of the strand: a release drains nothing (05 R158; 13 R407). -/
def State.noReds (s : State) (st : Strand) : Prop := ∀ d, (s.core d).merges.any (fun g => g.strands.contains st.uid) = false
/-- Every earlier event of the strand is complete, near or also far, and no write queue holds a reduction of it: a release has nothing to
wait for and nothing to drain (05 R146, R151). -/
def State.settled (s : State) (c : CoreId) (st : Strand) (far : Bool) : Prop := s.quiet c st far = true ∧ s.noReds st

/-- No watchpoint of a core is enabled, and a writer's bytes are not logged: a write changes memory and nothing else. -/
def State.quietWrites (s : State) (c : CoreId) (st : Strand) : Prop :=
  st.stat.log = false ∧ ∀ i < 2, bitAt ((s.core c).dbg.watch.toList.getD i (0, 0)).1 63 = false

/-- The atomics with a word operand, by what they write. -/
def amoWord : List ((OpAmo → Instr) × Nat × (Nat → Nat → Word → Nat)) :=
  [(.amoSwap, 0, fun n _ b => b.toNat % 2 ^ (8 * n)), (.amoAdd, 2, fun n old b => (old + b.toNat) % 2 ^ (8 * n)),
   (.amoMax, 3, fun n old b => if sextInt b.toNat (8 * n) ≤ sextInt old (8 * n) then old else b.toNat % 2 ^ (8 * n))]

/-- The reductions with their operation numbers (05 R157). -/
def reductions : List ((OpRed → Instr) × Nat × RedOp) :=
  [(.redAdd, 0, .add), (.redAnd, 1, .and), (.redOr, 2, .or), (.redXor, 3, .xor), (.redMin, 4, .min), (.redMax, 5, .max),
   (.redMinu, 6, .minu), (.redMaxu, 7, .maxu), (.redFadd, 8, .fadd), (.redFmax, 9, .fmax), (.redFmin, 10, .fmin)]

/-- The waits on a word with their fn and their conditions (05 R170). -/
def waits : List ((OpWait → Instr) × Nat × (Nat → Nat → Word → Bool)) :=
  [(.waiteq, 0, fun n x v => decide (x = v.toNat % 2 ^ (8 * n))), (.waitne, 1, fun n x v => decide (x ≠ v.toNat % 2 ^ (8 * n))),
   (.waitge, 2, fun n x v => decide (sextInt v.toNat (8 * n) ≤ sextInt x (8 * n)))]

/-! ### Vector instructions (08 R241 to R271) -/

/-- The strand `st` in slot n of core c has the turn, a page 2 instruction guarded by g reaches the unit of its own core with the
strand's bound context i, which holds x, and the general registers `rs` are final. -/
structure VReady (s : State) (c : CoreId) (n : Nat) (st : Strand) (i : Nat) (x : VecCtx) (g : Guard) (rs : List Reg) : Prop where
  turn : s.curStrand = some (c, n, st)
  guard : guardHolds st g = true
  slot : n < 32
  unit : (s.core c).has 1 = true
  bound : st.vctx = some i
  holds : List.lookup i (s.core c).vctx = some x
  final : ∀ r ∈ rs, st.pending r = .clear
  noQueue : st.stat.qbound = false
  noHold : st.hold = none

/-- The strand's barrel queue has an entry free, and no earlier vector instruction of the strand failed its verdict check. -/
def State.vecRoom (s : State) (c : CoreId) (n : Nat) (st : Strand) : Prop :=
  ((s.core c).vq (n / 16)).length < 8 ∧ (s.core c).vPoisoned st.uid = false

/-- A register-only instruction has issued (08 R249): it stands at the end of the queue with its chunks and its flags, the
context holds its result x', and the strand goes on. -/
def State.vecRan (s : State) (c : CoreId) (n : Nat) (st : Strand) (i : Nat) (x x' : VecCtx) (fl : Flags) (nars : Nat) : State :=
  let e : VQEntry := ⟨n, st.uid, st.pc, max 1 ((x.vl + 15) / 16), 0, fl, nars, none, false⟩
  ((s.vEnqueue c n e).setVctx c i x').done c n st

/-- x' is x with the elements j of register d for which `on j` holds replaced by f j. -/
def VecCtx.wrote (x : VecCtx) (d : Reg) (on : Nat → Bool) (f : Nat → Nat) (x' : VecCtx) : Prop :=
  (∀ j < 256, x'.cell d j = if on j then f j else x.cell d j) ∧
  (∀ r ≠ d, ∀ j < 256, x'.cell r j = x.cell r j) ∧ x' = { x with v := x'.v }

/-- x' is x with the bits j of mask k for which `on j` holds replaced by f j. -/
def VecCtx.masked (x : VecCtx) (k : Fin 4) (on : Nat → Bool) (f : Nat → Bool) (x' : VecCtx) : Prop :=
  (∀ j < 256, x'.mask k j = if on j then f j else x.mask k j) ∧
  (∀ q ≠ k, ∀ j < 256, x'.mask q j = x.mask q j) ∧ x' = { x with m := x'.m }

/-- No active element of register r is a verdict NaN, where its type is F32 or BF16 (03 R103). -/
def VecCtx.noVerdict (x : VecCtx) (m : Option (Fin 4)) (t : Elem) (r : Reg) : Prop :=
  ∀ f, elemFmt t = some f → ∀ j < 256, x.isActive m j = true → isVN f (x.elem t r j) = false

/-- The flags of all active elements. -/
def VecCtx.flags (x : VecCtx) (m : Option (Fin 4)) (f : Nat → Flags) : Flags :=
  (x.act m).foldl (fun a j => a.or (f j)) Flags.none

/-- An element operation by type (08 R257): integers wrapped, or a rounded F32 or BF16 result. -/
def byType (i : Nat → Int → Int → Int) (f : Fmt → Rm → FVal → FVal → Nat × Flags) (t : Elem) (rm : Rm) (a b : Nat) : Nat × Flags :=
  match t with
  | .i32 => ((i 32 (sextInt a 32) (sextInt b 32) % 2 ^ 32).toNat, Flags.none)
  | .f32 => f .f32 rm (decFp .f32 a) (decFp .f32 b)
  | .bf16 => f .bf16 .rne (decFp .bf16 a) (decFp .bf16 b)
  | _ => ((i 8 (sextInt a 8) (sextInt b 8) % 2 ^ 8).toNat, Flags.none)
/-- The smaller or the larger; floating point works on the patterns. -/
def extremeOf (mx : Bool) (t : Elem) (a b : Nat) : Nat × Flags :=
  match t with
  | .f32 => fpMinMax .f32 mx a b
  | .bf16 => fpMinMax .bf16 mx a b
  | _ => byType (fun _ p q => if mx then max p q else min p q) (fun _ _ _ _ => (0, Flags.none)) t .rne a b
/-- Members on bits have no flag. -/
def onBits (f : Nat → Nat → Nat → Nat) (t : Elem) (_ : Rm) (a b : Nat) : Nat × Flags :=
  (f (match t with | .bf16 => 16 | .t8 => 8 | .t6 => 6 | .i8 => 8 | _ => 32) a b, Flags.none)

/-- Members of two vector operands: whether they read values, their types, and their result (08 R255 to R257). -/
def vecPairs : List ((OpVDAB → Instr) × Bool × List Elem × (Elem → Rm → Nat → Nat → Nat × Flags)) :=
  [(.vadd, true, typesArith, byType (fun _ a b => a + b) fpAdd), (.vsub, true, typesArith, byType (fun _ a b => a - b) fpSub),
   (.vmul, true, typesArith, byType (fun _ a b => a * b) fpMul),
   (.vdiv, true, typesDiv, byType (fun _ a b => if b = 0 then -1 else a.tdiv b) fpDiv),
   (.vmin, true, typesArith, fun t _ => extremeOf false t), (.vmax, true, typesArith, fun t _ => extremeOf true t),
   (.vabsd, true, typesArith, byType (fun _ a b => if a ≤ b then b - a else a - b) (fun f rm => fpAbsDiff f rm false)),
   (.vsqd, true, typesDiv, byType (fun _ a b => (a - b) * (a - b)) (fun f rm => fpAbsDiff f rm true)),
   (.vand, false, typesAll, onBits (fun _ a b => a &&& b)), (.vor, false, typesAll, onBits (fun _ a b => a ||| b)),
   (.vxor, false, typesAll, onBits (fun _ a b => a ^^^ b)),
   (.vshl, false, typesShift, onBits (fun w a b => if w ≤ b then 0 else a * 2 ^ b % 2 ^ w)),
   (.vshr, false, typesShift, onBits (fun w a b => if w ≤ b then 0 else a / 2 ^ b)),
   (.vsar, false, typesShift, onBits (fun w a b => (sextInt a w / 2 ^ min b w % 2 ^ w).toNat))]

/-- Members with a scalar second operand. -/
def vecScalars : List ((OpVDAB → Instr) × (Elem → Rm → Nat → Nat → Nat × Flags)) :=
  [(.vadds, byType (fun _ a b => a + b) fpAdd), (.vmuls, byType (fun _ a b => a * b) fpMul), (.vmaxs, fun t _ => extremeOf true t)]

/-- Members of one vector operand. -/
def vecSingles : List ((OpVDA → Instr) × Bool × List Elem × (Elem → Nat → Nat × Flags)) :=
  [(.vmov, false, typesAll, fun _ a => (a, Flags.none)),
   (.vneg, true, typesArith, fun t a => match t with
     | .f32 => fpSignOp .f32 true a | .bf16 => fpSignOp .bf16 true a
     | _ => byType (fun _ p _ => -p) (fun _ _ _ _ => (0, Flags.none)) t .rne a 0),
   (.vabs, true, typesArith, fun t a => match t with
     | .f32 => fpSignOp .f32 false a | .bf16 => fpSignOp .bf16 false a
     | _ => byType (fun _ p _ => if p < 0 then -p else p) (fun _ _ _ _ => (0, Flags.none)) t .rne a 0)]

/-- Compares: the relation of integers, and of floating-point values (08 R258). -/
def vecCmps : List ((OpVCmp → Instr) × (Int → Int → Bool) × FCmp) :=
  [(.vcmpeq, fun a b => decide (a = b), .eq), (.vcmpne, fun a b => decide (a ≠ b), .ne), (.vcmplt, fun a b => decide (a < b), .lt),
   (.vcmple, fun a b => decide (a ≤ b), .le)]
def cmpByType (i : Int → Int → Bool) (f : FCmp) (t : Elem) (a b : Nat) : Bool × Flags :=
  match t with
  | .i32 => (i (sextInt a 32) (sextInt b 32), Flags.none)
  | .f32 => fpCmp f (decFp .f32 a) (decFp .f32 b)
  | .bf16 => fpCmp f (decFp .bf16 a) (decFp .bf16 b)
  | _ => (i (sextInt a 8) (sextInt b 8), Flags.none)

/-- A holding instruction has started (08 R249): it stands at the end of the queue, and the strand waits with class WAIT-MEM. -/
def State.vecEntered (s : State) (c : CoreId) (n : Nat) (st : Strand) (i : Nat) (x : VecCtx) (poison : Option (Nat × Nat))
    (h : VProg) : State :=
  let e : VQEntry := ⟨n, st.uid, st.pc, max 1 ((x.vl + 15) / 16), 0, Flags.none, 0, poison, true⟩
  ((s.vEnqueue c n e).setVctx c i x).putStrand c n { st with hold := some h, run := .blocked .mem }

/-- The strand's holding instruction has its turn with progress h, stands at the front of its queue, and has all its chunks. -/
structure VHolds (s : State) (c : CoreId) (n : Nat) (st : Strand) (i : Nat) (x : VecCtx) (g : Guard) (h : VProg)
    (e : VQEntry) : Prop where
  turn : s.curStrand = some (c, n, st)
  guard : guardHolds st g = true
  slot : n < 32
  unit : (s.core c).has 1 = true
  bound : st.vctx = some i
  holds : List.lookup i (s.core c).vctx = some x
  noQueue : st.stat.qbound = false
  hold : st.hold = some h
  front : (s.core c).vq (n / 16) = [e]
  own : e.uid = st.uid
  holding : e.holding = true
  granted : max 1 ((x.vl + 15) / 16) ≤ e.granted

/-- The holding instruction is complete: its entry has left, PIX is clear, its flags are in FCW, and the strand goes on. -/
def State.vecEnded (s : State) (c : CoreId) (n : Nat) (st : Strand) (fl : Flags) : State :=
  ((s.modCore c (fun k => k.setVq (n / 16) [])).fpEvents c st.lslot fl 0).done c n { st.raise fl with hold := none, pix := none }
def State.vecEndedWith (s : State) (c : CoreId) (n : Nat) (st : Strand) (fl : Flags) (d : Reg) (v : Word) : State :=
  ((s.modCore c (fun k => k.setVq (n / 16) [])).fpEvents c st.lslot fl 0).done c n
    ({ st.raise fl with hold := none, pix := none }.setG d v)

/-- An event of the vector member of that major and fn resolves to pa of the strand's own core, outside the control space, and nothing holds it
back: no LDS and no posted operation is outstanding, nothing is being combined or parked there, no error, no MIRROR page. -/
structure VLocal (s : State) (c : CoreId) (st : Strand) (mem : Nat × Nat) (form : Form) (base : Word) (off : Int) (kind : Nat)
    (pa : Nat) (leaf : Word) (s' : State) : Prop where
  memory : Memory.wf s'.mem = true
  resolved : s.resolve (placeCtx c st) st form base off kind (memberInfo 2 mem.1 mem.2) = .ok pa leaf s'
  home : homeOf pa = c
  device : isHost pa = false
  plain : inControl (offOf pa) = false
  noMirror : lfMirror leaf = false
  notRetired : (s'.core c).cfg.fwdValid = false
  clean : s'.ecc = []
  sound : s'.soft = []
  noMerge : (s'.core c).merges = []
  noWaiter : (s'.core c).waiters = []
  noAcquire : st.lds = []
  noPost : st.posts = []

/-! ### Rings (09 R276 to R294) -/

/-- Ring i of core c is r, and belongs to the strand's context (09 R278). -/
def State.ownRing (s : State) (c : CoreId) (st : Strand) (i : Nat) (r : Ring) : Prop := s.ring c i = some r ∧ r.asid = st.asid
/-- The number of published entries, of free entries, and the address of an entry by its counter (09 R277). -/
def Ring.p (r : Ring) : Nat := (r.pub + 65536 - r.head) % 65536
def Ring.f (r : Ring) : Nat := 2 ^ r.logent - (r.claim + 65536 - r.head) % 65536 - r.granted
def Ring.at (r : Ring) (cnt : Nat) : Nat := 0x20000000 + r.base + cnt % 2 ^ r.logent * (16 * (r.sizem1 + 1))
/-- The granules of the entries with counters first to first + k − 1. -/
def Ring.spans (r : Ring) (c : CoreId) (first k g : Nat) : Prop :=
  ∃ j < k, let a := coreBase c + r.at ((first + j) % 65536)
    a / 16 ≤ g ∧ g < a / 16 + (r.sizem1 + 1)
/-- Nothing is being combined or parked at core c, so a change there is a change of its bytes and nothing else. -/
structure CalmCore (s : State) (c : CoreId) (st : Strand) : Prop where
  memory : Memory.wf s.mem = true
  noMerge : (s.core c).merges = []
  noWaiter : (s.core c).waiters = []
  quiet : s.quietWrites c st
/-- A wait of HERE ends at once, or parks with its limit (00 R16; 05 R170, R171). -/
def State.waited (s : State) (c : CoreId) (n : Nat) (st : Strand) (holds : Bool) (limit : Word) (out : Out) : Prop :=
  (holds = true → out = .next (s.done c n (st.setP 3 true))) ∧
  (holds = false → s.isDue (s.limitAt st limit) = false →
    out = .next (s.putStrand c n { st with deadline := s.limitAt st limit, run := .blocked .msg })) ∧
  (holds = false → s.isDue (s.limitAt st limit) = true → st.stat.wtrap = false → out = .next (s.done c n (st.setP 3 false)))

/-- The wheel collectives with their fn (12 R390). -/
def collectives : List ((OpDAB → Instr) × Nat) := [(.wsum, 0), (.wmax, 1), (.wmin, 2), (.wor, 3)]

/-! ### Privileged members (06 R200 to R207; 10 R333 to R351; 11 R365 to R372; 14 R417 to R424; 15 R432 to R451) -/

/-- A privileged strand has the turn, and the registers `rs` are final. -/
structure PReady (s : State) (c : CoreId) (n : Nat) (st : Strand) (g : Guard) (rs : List Reg) : Prop where
  ready : Ready s c n st g rs
  priv : st.stat.priv = true

/-- An area of len bytes at a VA, 64-byte aligned and in one 4 KiB stripe, resolves to pa of the strand's own core, outside the
control space, with nothing combined, parked or in error there. s' is the state after the translation. -/
structure AreaAt (s : State) (c : CoreId) (st : Strand) (va : Word) (len kind : Nat) (info : Word) (pa : Nat) (leaf : Word)
    (s' : State) : Prop where
  memory : Memory.wf s'.mem = true
  aligned : va.toNat % 64 = 0
  stripe : va.toNat % 4096 + len ≤ 4096
  resolved : s.resolve (placeCtx c st) Strand.fresh .va va 0 kind info = .ok pa leaf s'
  home : homeOf pa = c
  device : isHost pa = false
  plain : inControl (offOf pa) = false
  noMirror : lfMirror leaf = false
  clean : s'.ecc = []
  noMerge : (s'.core c).merges = []
  noWaiter : (s'.core c).waiters = []

/-- The granule at byte pos of a block at a VA resolves to pa of the strand's own core, outside the control space, on no MIRROR page,
with nothing combined or in error there. -/
structure GranuleAt (s : State) (x : XCtx) (st : Strand) (va : Word) (pos kind : Nat) (info : Word) (pa : Nat) (leaf : Word)
    (s' : State) : Prop where
  resolved : s.resolve x st .va va pos kind info = .ok pa leaf s'
  home : homeOf pa = x.core
  device : isHost pa = false
  plain : inControl (offOf pa) = false
  noMirror : lfMirror leaf = false
  clean : s'.ecc = []
  sound : s'.soft = []
  noMerge : (s'.core x.core).merges = []

/-- One turn of a block write at a VA has been made (00 R13): the next granule of the block, or the part of one at either end, stands at pa,
the strand's block has gone on by its bytes, and nothing else of memory has changed. -/
def State.wroteGranule (s' : State) (c : CoreId) (n : Nat) (st : Strand) (va : Word) (b : Bulk) (pa : Nat) (t : State) : Prop :=
  let z := min (b.len - b.pos) (16 - (va + BitVec.ofNat 64 b.pos).toNat % 16)
  let img := b.img.dropWhile (fun x => x.1 < b.pos)
  t.strandAt c n = some { st with bulk := some { b with img := img, pos := b.pos + z }, run := .blocked .mem } ∧
  memRead t.mem pa z = memRead img b.pos z ∧ ∀ a, a < pa ∨ pa + z ≤ a → memGet t.mem a = memGet s'.mem a

/-- The doubleword of memory at a PA. -/
def State.dword (s : State) (pa : Nat) : Word := BitVec.ofNat 64 (ofLe (memRead s.mem pa 8))

/-- The strand has read the len bytes b of its descriptor, at an address aligned to al: every earlier turn of the instruction read one
16-byte granule of it (00 R13). -/
def Strand.hasRead (st : Strand) (va : Word) (al len : Nat) (b : List Byte) : Prop :=
  va.toNat % al = 0 ∧ b = st.rbuf ∧ b.length = len
/-- The strand has read the 128-byte descriptor b of a partition operation, and nothing of it is outstanding (14 R417). -/
def State.sysRead (s : State) (c : CoreId) (st : Strand) (va : Word) (b : List Byte) : Prop :=
  s.settled c st false ∧ st.hasRead va 64 128 b
/-- The status of a partition operation: its word in g[d], and p3 for code 0 (14 R417). -/
def State.sysAnswer (s : State) (c : CoreId) (n : Nat) (st : Strand) (d : Reg) (code mask count : Nat) : Out :=
  .next (s.wrote c n (st.setP 3 (decide (code = 0))) d (BitVec.ofNat 64 (code * 2 ^ 56 + mask % 2 ^ 16 * 2 ^ 32 + count % 2 ^ 32)))

/-! ### Messages and the steps that no strand issues (07 R215 to R232; 12 R374, R375) -/

/-- Message i of the network is m with the body b, no other on its path stands before it, and its destination is not retired (07 R232;
12 R375). -/
structure Arrives (s : State) (i : Nat) (m : Msg) (b : Body) : Prop where
  here : s.net[i]? = some m
  first : s.deliverable i m = true
  kept : (s.core m.dst).cfg.fwdValid = false
  body : m.body = b

/-- The message that the step sent last. -/
def State.newest (t : State) (src dst : CoreId) (back : Bool) (b : Body) : Prop :=
  ∃ y, t.net.getLast? = some y ∧ y.src = src ∧ y.dst = dst ∧ y.isReturn = back ∧ y.body = b

/-- The step from s to t sent that message. -/
def State.posted (s t : State) (src dst : CoreId) (back : Bool) (b : Body) : Prop :=
  ∃ y ∈ t.net, s.nextId ≤ y.id ∧ y.src = src ∧ y.dst = dst ∧ y.isReturn = back ∧ y.body = b

/-- Nothing is combined, parked, watched or in error at a home, and a write there is neither logged nor mirrored: an access changes
its bytes and nothing else. -/
structure CalmHome (s : State) (h : CoreId) (leaf : Word) (log : Bool) : Prop where
  memory : Memory.wf s.mem = true
  noMerge : (s.core h).merges = []
  noWaiter : (s.core h).waiters = []
  clean : s.ecc = []
  noMirror : lfMirror leaf = false
  noLog : log = false
  noWatch : ∀ i < 2, bitAt ((s.core h).dbg.watch.toList.getD i (0, 0)).1 63 = false

/-- The strand of a reference waits for what k says. -/
def State.awaits (s : State) (ref : Ref) (st : Strand) (cls : WaitClass) (r : MemReq) : Prop :=
  s.strandAt ref.core ref.slot = some st ∧ st.uid = ref.uid ∧ st.run = .await cls r

/-- Operation i of a core's schedulers has ended: its record is free and the board holds its end state (05 R173; 09 R296). -/
def State.ended (t : State) (c : CoreId) (i : Nat) (r : Record) (e : EndState) : Prop :=
  t.record c i = none ∧ ∃ b, List.lookup i (t.core c).board = some b ∧ b.ends.head? = some (r.seq, e, r.job.progress, 0)

/-! ### Launches and gangs at the dispatcher (10 R331 to R353) -/

/-- The launch with an order number in a partition. -/
def State.launchAt (s : State) (p n : Nat) : Option Launch := match s.part p with | none => none | some x => x.launch n
/-- Launch l of partition x at p stands in launch slot sl. -/
def State.placed (s : State) (p : Nat) (x : Partition) (n : Nat) (l : Launch) (sl : Nat) : Prop :=
  s.part p = some x ∧ x.launch n = some l ∧ l.slot = some sl
/-- A step leads to a state in which launch n is l'. -/
def launchIs (out : Out) (p n : Nat) (l' : Launch) : Prop := ∃ t, out = .next t ∧ t.launchAt p n = some l'

/-! ### Fetching and decoding (02 R46 to R61; 05 R161) -/

/-- The row that a word decodes to: a word names one row of each pair whose other row the descriptor or the command word selects
(06 R202; 10 R333; 14 R417, R419; 15 R432, R440; log 6). -/
def firstOf : Instr → Instr
  | .dctlTeardown o => .dctlInstall o
  | .logctlRemove o => .logctlInstall o
  | .logcmdUnpick o => .logcmdSeam o
  | .logcmdForget o => .logcmdSeam o
  | .logcmdResume o => .logcmdSeam o
  | .quiesceRelease o => .quiesceHold o
  | .partsetDissolve o => .partset o
  | i => i

/-- The strand `st` of slot n of core c has its turn in this step and issues a fresh instruction: the device runs, the step is no
entry of the agenda, the strand stands first in line, neither the core nor the strand is stopped, and no trap is due. s' is the state in
which the turn is made. -/
structure AtIssue (s : State) (c : CoreId) (n : Nat) (st : Strand) (s' : State) : Prop where
  agenda : s.agenda = []
  running : s.isRunning = true
  inLine : s.turns = (c, n) :: s'.turns
  state : s' = { s with turns := s'.turns, cur := some (c, n) }
  turn : s'.curStrand = some (c, n, st)
  core : (s'.core c).cfg.halted = false
  noStop : (s'.core c).dbg.stop = false
  notFrozen : s'.frozenLog c st = false
  ready : st.run = .ready
  noTrap : st.trap = none

/-- The halfword `hw` stands at a VA that the strand may fetch from: the translation caches give its PA, and the page's nearest copy is
read (11 R366). -/
structure FetchesAt (s : State) (c : CoreId) (n : Nat) (st : Strand) (va : Word) (hw : Nat) (pa : Nat) (leaf : Word) : Prop where
  translated : s.xlate (scalarCtx c n st) va kExec = .ok pa leaf s
  checked : s.checkPa c st.stat.priv .va 0 pa leaf s = .ok pa leaf s
  readable : s.readPa (s.nearPa c leaf pa) 2 leaf false = .ok (memRead s.mem (s.nearPa c leaf pa) 2) s
  bytes : hw = (memGet s.mem (s.nearPa c leaf pa)).toNat + 256 * (memGet s.mem (s.nearPa c leaf pa + 1)).toNat

/-! ### The guard of an instruction; none for a step that has no words -/

def guardOf : Instr → Option Guard
  | .add o => some o.g
  | .sub o => some o.g
  | .and o => some o.g
  | .or o => some o.g
  | .xor o => some o.g
  | .shl o => some o.g
  | .shr o => some o.g
  | .sar o => some o.g
  | .mul o => some o.g
  | .mulhu o => some o.g
  | .min o => some o.g
  | .max o => some o.g
  | .mov o => some o.g
  | .not o => some o.g
  | .neg o => some o.g
  | .lea o => some o.g
  | .cmpeq o => some o.g
  | .cmpne o => some o.g
  | .cmplt o => some o.g
  | .cmpltu o => some o.g
  | .addi o => some o.g
  | .shli o => some o.g
  | .shri o => some o.g
  | .sari o => some o.g
  | .cmpeqi o => some o.g
  | .cmplti o => some o.g
  | .movi o => some o.g
  | .movhi o => some o.g
  | .ld o => some o.g
  | .ldu o => some o.g
  | .st o => some o.g
  | .lds o => some o.g
  | .amoSwap o => some o.g
  | .amoCas o => some o.g
  | .amoAdd o => some o.g
  | .amoMax o => some o.g
  | .redAdd o => some o.g
  | .redAnd o => some o.g
  | .redOr o => some o.g
  | .redXor o => some o.g
  | .redMin o => some o.g
  | .redMax o => some o.g
  | .redMinu o => some o.g
  | .redMaxu o => some o.g
  | .redFadd o => some o.g
  | .redFmax o => some o.g
  | .redFmin o => some o.g
  | .br o => some o.g
  | .call o => some o.g
  | .jr o => some o.g
  | .jalr o => some o.g
  | .loop o => some o.g
  | .spawn o => some o.g
  | .waiteq o => some o.g
  | .waitne o => some o.g
  | .waitge o => some o.g
  | .waitany o => some o.g
  | .fwait o => some o.g
  | .ftest o => some o.g
  | .fcancel o => some o.g
  | .fstatus o => some o.g
  | .nop o => some o.g
  | .exit o => some o.g
  | .join o => some o.g
  | .yield o => some o.g
  | .brkl o => some o.g
  | .fenceCore o => some o.g
  | .fenceClus o => some o.g
  | .fencePart o => some o.g
  | .fenceFab o => some o.g
  | .fenceSys o => some o.g
  | .trap o => some o.g
  | .pin o => some o.g
  | .unpin o => some o.g
  | .div o => some o.g
  | .divu o => some o.g
  | .rem o => some o.g
  | .remu o => some o.g
  | .minu o => some o.g
  | .maxu o => some o.g
  | .rotl o => some o.g
  | .rotr o => some o.g
  | .popc o => some o.g
  | .clz o => some o.g
  | .ctz o => some o.g
  | .brev o => some o.g
  | .bfx o => some o.g
  | .bfi o => some o.g
  | .bswap o => some o.g
  | .sext o => some o.g
  | .fadd o => some o.g
  | .fsub o => some o.g
  | .fmul o => some o.g
  | .fdiv o => some o.g
  | .fmin o => some o.g
  | .fmax o => some o.g
  | .fsqrt o => some o.g
  | .fabs o => some o.g
  | .fma o => some o.g
  | .fms o => some o.g
  | .fnma o => some o.g
  | .fnms o => some o.g
  | .fcmpeq o => some o.g
  | .fcmplt o => some o.g
  | .fcmple o => some o.g
  | .fcmpun o => some o.g
  | .cvtif o => some o.g
  | .cvtfi o => some o.g
  | .cvtfb o => some o.g
  | .cvtbf o => some o.g
  | .cvtf8 o => some o.g
  | .cvt8f o => some o.g
  | .cvtf6 o => some o.g
  | .cvt6f o => some o.g
  | .vntest o => some o.g
  | .vnrep o => some o.g
  | .vninfo o => some o.g
  | .fneg o => some o.g
  | .fclass o => some o.g
  | .mfs o => some o.g
  | .mts o => some o.g
  | .vadd o => some o.g
  | .vsub o => some o.g
  | .vmul o => some o.g
  | .vdiv o => some o.g
  | .vmin o => some o.g
  | .vmax o => some o.g
  | .vand o => some o.g
  | .vor o => some o.g
  | .vxor o => some o.g
  | .vshl o => some o.g
  | .vshr o => some o.g
  | .vsar o => some o.g
  | .vfma o => some o.g
  | .vfms o => some o.g
  | .vabsd o => some o.g
  | .vsqd o => some o.g
  | .vadds o => some o.g
  | .vmuls o => some o.g
  | .vmaxs o => some o.g
  | .vsplat o => some o.g
  | .vcmpeq o => some o.g
  | .vcmpne o => some o.g
  | .vcmplt o => some o.g
  | .vcmple o => some o.g
  | .vsel o => some o.g
  | .vmov o => some o.g
  | .vneg o => some o.g
  | .vabs o => some o.g
  | .vredsum o => some o.g
  | .vredmax o => some o.g
  | .vredmin o => some o.g
  | .vredarg o => some o.g
  | .vcvt o => some o.g
  | .vscale o => some o.g
  | .viota o => some o.g
  | .vcomp o => some o.g
  | .vld o => some o.g
  | .vst o => some o.g
  | .vlds o => some o.g
  | .vsts o => some o.g
  | .vldb o => some o.g
  | .vstb o => some o.g
  | .vgath o => some o.g
  | .vscat o => some o.g
  | .vscatadd o => some o.g
  | .vscatmax o => some o.g
  | .vtopkins o => some o.g
  | .vtopkthr o => some o.g
  | .vnmask o => some o.g
  | .vnrepv o => some o.g
  | .vbind o => some o.g
  | .vfree o => some o.g
  | .vsetl o => some o.g
  | .vgetl o => some o.g
  | .vwait o => some o.g
  | .vpixrd o => some o.g
  | .rclaim o => some o.g
  | .rpub o => some o.g
  | .rpop o => some o.g
  | .rpeek o => some o.g
  | .rwaitf o => some o.g
  | .rwaite o => some o.g
  | .rstat o => some o.g
  | .rcfg o => some o.g
  | .rapp o => some o.g
  | .rsteal o => some o.g
  | .rpopt o => some o.g
  | .rcred o => some o.g
  | .qbind o => some o.g
  | .qfree o => some o.g
  | .copy o => some o.g
  | .bcset o => some o.g
  | .bcwait o => some o.g
  | .mtask o => some o.g
  | .mprog o => some o.g
  | .mthr o => some o.g
  | .mquery o => some o.g
  | .barc o => some o.g
  | .barg o => some o.g
  | .barga o => some o.g
  | .bargw o => some o.g
  | .wsum o => some o.g
  | .wmax o => some o.g
  | .wmin o => some o.g
  | .wor o => some o.g
  | .launch o => some o.g
  | .lstat o => some o.g
  | .tsc o => some o.g
  | .whereAt o => some o.g
  | .lnum o => some o.g
  | .ganginfo o => some o.g
  | .crewinfo o => some o.g
  | .feat o => some o.g
  | .seam o => some o.g
  | .mfsp o => some o.g
  | .mtsp o => some o.g
  | .vshareWrite o => some o.g
  | .dctlInstall o => some o.g
  | .logctlInstall o => some o.g
  | .logcmdSeam o => some o.g
  | .invr o => some o.g
  | .inva o => some o.g
  | .icinv o => some o.g
  | .trapret o => some o.g
  | .reinj o => some o.g
  | .ctxsave o => some o.g
  | .ctxload o => some o.g
  | .quiesceHold o => some o.g
  | .partset o => some o.g
  | .wswitch o => some o.g
  | .halt o => some o.g
  | .ctrrd o => some o.g
  | .ctrcfg o => some o.g
  | .ctrsave o => some o.g
  | .ctrload o => some o.g
  | .mirset o => some o.g
  | .mirsync o => some o.g
  | .retire o => some o.g
  | .dctlTeardown o => some o.g
  | .logctlRemove o => some o.g
  | .logcmdUnpick o => some o.g
  | .logcmdForget o => some o.g
  | .logcmdResume o => some o.g
  | .quiesceRelease o => some o.g
  | .partsetDissolve o => some o.g
  | .vectorGrant _ => none
  | .vectorComplete _ => none
  | .barrelTurn _ => none
  | .breakPoint _ => none
  | .coatDeparture _ => none
  | .coatArrival _ => none
  | .crewDescriptorReply _ => none
  | .annexReply _ => none
  | .admissionAck _ => none
  | .bounceLanding _ => none
  | .bounceBackoffExpiry _ => none
  | .coatForward _ => none
  | .ldsReply _ => none
  | .remoteReadRequest _ => none
  | .remoteReply _ => none
  | .postedWriteArrival _ => none
  | .redArrival _ => none
  | .mergeGroupTimeout _ => none
  | .amoRequest _ => none
  | .waitRequest _ => none
  | .waiterResendTimer _ => none
  | .waitWithdrawal _ => none
  | .blockLimitExpiry _ => none
  | .postAck _ => none
  | .postRefusal _ => none
  | .requestResendTimer _ => none
  | .boardQuery _ => none
  | .boardReply _ => none
  | .cancelRequest _ => none
  | .mirrorUpdate _ => none
  | .appendArrival _ => none
  | .appendReply _ => none
  | .creditRequest _ => none
  | .creditGrant _ => none
  | .creditResendTimer _ => none
  | .creditReturn _ => none
  | .stealRequest _ => none
  | .stealReply _ => none
  | .dependenceResolved _ => none
  | .taskIssue _ => none
  | .copyChunkSend _ => none
  | .copyChunkArrival _ => none
  | .copyChunkRefused _ => none
  | .copyResumeNotice _ => none
  | .copyPendingTimeout _ => none
  | .copyDone _ => none
  | .matrixStep _ => none
  | .taskDone _ => none
  | .scoreLaneTake _ => none
  | .scoreBlock _ => none
  | .thetaRefresh _ => none
  | .crewArrive _ => none
  | .crewExitNotice _ => none
  | .crewCompletion _ => none
  | .crewCompletionAck _ => none
  | .tscSync _ => none
  | .invalidationDelivery _ => none
  | .invalidationSweep _ => none
  | .launchStop _ => none
  | .descriptorDrop _ => none
  | .mapBroadcast _ => none
  | .countingSweep _ => none
  | .gangPhaseComplete _ => none
  | .enqueue _ => none
  | .doorbellLaunch _ => none
  | .launchDepResolved _ => none
  | .launchAgeing _ => none
  | .launchSelect _ => none
  | .gangPlacement _ => none
  | .preemptVictims _ => none
  | .gangSave _ => none
  | .gangStart _ => none
  | .preemptionStop _ => none
  | .crewEnd _ => none
  | .faultRecordArrival _ => none
  | .launchComplete _ => none
  | .walkComplete _ => none
  | .walkRetryTimer _ => none
  | .seamOpen _ => none
  | .frayNotice _ => none
  | .debugStop _ => none
  | .debugStopComplete _ => none
  | .debugResume _ => none
  | .controlRegisterWrite _ => none
  | .dumpWrite _ => none
  | .hostRead _ => none
  | .hostWrite _ => none
  | .hostAtomic _ => none
  | .boot _ => none
  | .firmwareLoad _ => none
  | .attestation _ => none
  | .lifetimeWrite _ => none
  | .powerCheck _ => none
  | .checkpointCommand _ => none
  | .checkpointRestore _ => none
  | .coreLoss _ => none
  | .linkFailure _ => none
  | .linkCrcRetry _ => none
  | .fabricResult _ => none
  | .gangArrive _ => none
  | .proxyRequest _ => none
  | .fabricPartialArrival _ => none
  | .abagalLinkDown _ => none
  | .orderlyShutdown _ => none
  | .fabricCapabilityCommand _ => none

/-- The privileged instructions, all of page 5, with PRIVILEGE's INFO: page, major and fn (02 R69; 06 R187). -/
def privilegedInfo : Instr → Option Nat
  | .mfsp _ => some 327680
  | .mtsp _ => some 327936
  | .vshareWrite _ => some 327936
  | .dctlInstall _ => some 327936
  | .logctlInstall _ => some 327936
  | .logcmdSeam _ => some 327936
  | .invr _ => some 328192
  | .inva _ => some 328193
  | .icinv _ => some 328194
  | .trapret _ => some 328448
  | .reinj _ => some 328449
  | .ctxsave _ => some 328450
  | .ctxload _ => some 328451
  | .quiesceHold _ => some 328704
  | .partset _ => some 328705
  | .wswitch _ => some 328706
  | .halt _ => some 328707
  | .ctrrd _ => some 328960
  | .ctrcfg _ => some 328961
  | .ctrsave _ => some 328962
  | .ctrload _ => some 328963
  | .mirset _ => some 329216
  | .mirsync _ => some 329217
  | .retire _ => some 329218
  | .dctlTeardown _ => some 327936
  | .logctlRemove _ => some 327936
  | .logcmdUnpick _ => some 327936
  | .logcmdForget _ => some 327936
  | .logcmdResume _ => some 327936
  | .quiesceRelease _ => some 328704
  | .partsetDissolve _ => some 328705
  | _ => none

end Sys2Proof.Machine
end

