-- ==== Sys2Proof/Certificates/Slice0/Obligations.lean ====
section
/-! DEFINITION. The statements for the provers. -/
open Sys2Proof Sys2Proof.Machine

/-- 04 R115, R116, R123 to R125, R137: the integer instructions of three and of two registers write g[d] with the value the rule gives;
CLZ and CTZ by the bit they find, with 64 for zero. -/
def Obligations.IntegerRegisterResults : Prop :=
  (∀ p ∈ intRRR, ∀ (o : OpDAB) (s : State) (c : CoreId) (n : Nat) (st : Strand),
      Ready s c n st o.g [o.a, o.b, o.d] →
      exec (p.1 o) s = .next (s.wrote c n st o.d (p.2 (st.reg o.a) (st.reg o.b)))) ∧
  ((∀ p ∈ intRR, ∀ (o : OpDA) (s : State) (c : CoreId) (n : Nat) (st : Strand),
      Ready s c n st o.g [o.a, o.d] →
      exec (p.1 o) s = .next (s.wrote c n st o.d (p.2 (st.reg o.a)))) ∧
    (∀ (o : OpDA) (s : State) (c : CoreId) (n : Nat) (st : Strand), Ready s c n st o.g [o.a, o.d] →
      ∃ k ≤ 64, exec (.ctz o) s = .next (s.wrote c n st o.d (BitVec.ofNat 64 k)) ∧
        (∀ i < k, (st.reg o.a).getLsbD i = false) ∧ (k < 64 → (st.reg o.a).getLsbD k = true)) ∧
    (∀ (o : OpDA) (s : State) (c : CoreId) (n : Nat) (st : Strand), Ready s c n st o.g [o.a, o.d] →
      ∃ k ≤ 64, exec (.clz o) s = .next (s.wrote c n st o.d (BitVec.ofNat 64 k)) ∧
        (∀ i < k, (st.reg o.a).getMsbD i = false) ∧ (k < 64 → (st.reg o.a).getMsbD k = true)))

/-- 04 R117, R120 to R122, R126 to R128: immediates, LEA, byte order and sign extension; BFX and BFI by their bits, where a field of
length L = min(LEN, 64 − POS) stands at POS. -/
def Obligations.IntegerImmediateAndFieldResults : Prop :=
  (∀ (s : State) (c : CoreId) (n : Nat) (st : Strand),
      (∀ p ∈ intRN, ∀ o : OpDAN, Ready s c n st o.g [o.a, o.d] →
        exec (p.1 o) s = .next (s.wrote c n st o.d (p.2 (st.reg o.a) o.n))) ∧
      (∀ o : OpDAI, Ready s c n st o.g [o.a, o.d] →
        exec (.addi o) s = .next (s.wrote c n st o.d (st.reg o.a + BitVec.ofInt 64 o.imm))) ∧
      (∀ o : OpDI, Ready s c n st o.g [o.d] →
        exec (.movi o) s = .next (s.wrote c n st o.d (BitVec.ofInt 64 o.imm))) ∧
      (∀ o : OpDN, Ready s c n st o.g [o.d] →
        ∃ v : Word, exec (.movhi o) s = .next (s.wrote c n st o.d v) ∧
          v.extractLsb 35 0 = (st.reg o.d).extractLsb 35 0 ∧ v.extractLsb 63 36 = BitVec.ofNat 28 o.n) ∧
      (∀ o : OpDABS, Ready s c n st o.g [o.a, o.b, o.d] →
        exec (.lea o) s = .next (s.wrote c n st o.d
          (st.reg o.a + st.reg o.b * (match o.size with | .b => 1 | .h => 2 | .w => 4 | .d => 8)))) ∧
      (∀ o : OpDAS, Ready s c n st o.g [o.a, o.d] →
        exec (.sext o) s = .next (s.wrote c n st o.d (match o.size with
          | .b => ((st.reg o.a).setWidth 8).signExtend 64
          | .h => ((st.reg o.a).setWidth 16).signExtend 64
          | .w => ((st.reg o.a).setWidth 32).signExtend 64
          | .d => st.reg o.a))) ∧
      (∀ o : OpDAS, Ready s c n st o.g [o.a, o.d] →
        ∃ v : Word, exec (.bswap o) s = .next (s.wrote c n st o.d v) ∧
          (let k := match o.size with | .b => 1 | .h => 2 | .w => 4 | .d => 8
           (∀ i < k, (v.toNat / 2 ^ (8 * i)) % 256 = ((st.reg o.a).toNat / 2 ^ (8 * (k - 1 - i))) % 256) ∧
           v.toNat < 2 ^ (8 * k)))) ∧
  (∀ (o : OpDAB) (s : State) (c : CoreId) (n : Nat) (st : Strand), Ready s c n st o.g [o.a, o.b, o.d] →
      let f := st.reg o.b
      let pos := f.toNat % 64
      let len := min (f.toNat / 2 ^ 8 % 128) (64 - pos)
      (∃ v : Word, exec (.bfx o) s = .next (s.wrote c n st o.d v) ∧
        (∀ i < len, v.getLsbD i = (st.reg o.a).getLsbD (pos + i)) ∧
        (∀ i, len ≤ i → i < 64 →
          v.getLsbD i = (f.getLsbD 15 && decide (0 < len) && (st.reg o.a).getLsbD (pos + len - 1)))) ∧
      (∃ v : Word, exec (.bfi o) s = .next (s.wrote c n st o.d v) ∧
        (∀ i < 64, v.getLsbD i =
          if pos ≤ i ∧ i < pos + len then (st.reg o.a).getLsbD (i - pos) else (st.reg o.d).getLsbD i)))

/-- 04 R118, R119, R136: a compare writes one predicate, in the AND form its conjunction with the old value. -/
def Obligations.ComparesWriteOnePredicate : Prop :=
  ∀ (s : State) (c : CoreId) (n : Nat) (st : Strand),
    (∀ p ∈ intCmp, ∀ o : OpCmp, Ready s c n st o.g [o.a, o.b] →
      exec (p.1 o) s = .next (s.done c n (st.compared o.p o.conj (p.2 (st.reg o.a) (st.reg o.b))))) ∧
    (∀ p ∈ intCmpI, ∀ o : OpCmpI, Ready s c n st o.g [o.a] →
      exec (p.1 o) s = .next (s.done c n (st.compared o.p o.conj (p.2 (st.reg o.a) (BitVec.ofInt 64 o.imm))))) ∧
    (∀ o : OpCmpA, Ready s c n st o.g [o.a] →
      exec (.vntest o) s = .next (s.done c n (st.compared o.p o.conj
        (decide (0x7FA00000 ≤ st.lo32 o.a % 2 ^ 31 ∧ st.lo32 o.a % 2 ^ 31 ≤ 0x7FBFFFFF)))))

/-- 04 R129 to R135, R138: floating-point results, with their flags and numeric events. No operand is a verdict NaN. -/
def Obligations.FloatResults : Prop :=
  ∀ (s : State) (c : CoreId) (n : Nat) (st : Strand),
    (∀ p ∈ fpRRR, ∀ o : OpDAB, Ready s c n st o.g [o.a, o.b, o.d] →
      isVN .f32 (st.lo32 o.a) = false → isVN .f32 (st.lo32 o.b) = false →
      let r := p.2 st.fcw.rm (st.lo32 o.a) (st.lo32 o.b)
      exec (p.1 o) s = .next (s.fpWrote c n st o.d (BitVec.ofNat 64 r.1) r.2 0)) ∧
    (∀ p ∈ fpFused, ∀ o : OpDABC, Ready s c n st o.g [o.a, o.b, o.c, o.d] →
      isVN .f32 (st.lo32 o.a) = false → isVN .f32 (st.lo32 o.b) = false → isVN .f32 (st.lo32 o.c) = false →
      let r := fpFma .f32 st.fcw.rm p.2.1 p.2.2 (f32 (st.lo32 o.a)) (f32 (st.lo32 o.b)) (f32 (st.lo32 o.c))
      exec (p.1 o) s = .next (s.fpWrote c n st o.d (BitVec.ofNat 64 r.1) r.2 0)) ∧
    (∀ p ∈ fpRR, ∀ o : OpDA, Ready s c n st o.g [o.a, o.d] → isVN .f32 (st.lo32 o.a) = false →
      let r := p.2.1 st.fcw.rm st.fcw.sat (st.lo32 o.a)
      exec (p.1 o) s = .next (s.fpWrote c n st o.d (BitVec.ofNat 64 r.1) r.2 (p.2.2 r.1))) ∧
    (∀ p ∈ fpCmps, ∀ o : OpCmp, Ready s c n st o.g [o.a, o.b] →
      isVN .f32 (st.lo32 o.a) = false → isVN .f32 (st.lo32 o.b) = false →
      let r := fpCmp p.2 (f32 (st.lo32 o.a)) (f32 (st.lo32 o.b))
      exec (p.1 o) s = .next ((s.fpEvents c st.lslot r.2 0).done c n ((st.compared o.p o.conj r.1).raise r.2))) ∧
    (∀ o : OpDA, Ready s c n st o.g [o.a, o.d] →
      let r := cvtToFp .f32 st.fcw.rm st.fcw.sat (intVal (st.reg o.a).toInt)
      exec (.cvtif o) s = .next (s.fpWrote c n st o.d (BitVec.ofNat 64 r.1) r.2 0)) ∧
    (∀ o : OpDA, Ready s c n st o.g [o.a, o.d] → isVN .f32 (st.lo32 o.a) = false →
      let r := cvtToInt 64 st.fcw.rm st.fcw.sat (f32 (st.lo32 o.a))
      exec (.cvtfi o) s = .next (s.fpWrote c n st o.d (BitVec.ofInt 64 r.1) r.2 0)) ∧
    (∀ o : OpDA, Ready s c n st o.g [o.a, o.d] → isVN .bf16 ((st.reg o.a).toNat % 2 ^ 16) = false →
      let r := cvtToFp .f32 st.fcw.rm st.fcw.sat (decFp .bf16 ((st.reg o.a).toNat % 2 ^ 16))
      exec (.cvtbf o) s = .next (s.fpWrote c n st o.d (BitVec.ofNat 64 r.1) r.2 0)) ∧
    (∀ o : OpDA, Ready s c n st o.g [o.a, o.d] →
      exec (.cvt8f o) s = .next (s.wrote c n st o.d
        (BitVec.ofNat 64 (cvtToFp .f32 st.fcw.rm false (decTaper 8 ((st.reg o.a).toNat % 2 ^ 8))).1)) ∧
      exec (.cvt6f o) s = .next (s.wrote c n st o.d
        (BitVec.ofNat 64 (cvtToFp .f32 st.fcw.rm false (decTaper 6 ((st.reg o.a).toNat % 2 ^ 6))).1))) ∧
    (∀ o : OpDA, Ready s c n st o.g [o.a, o.d] →
      exec (.vninfo o) s = .next (s.wrote c n st o.d
        (if isVN .f32 (st.lo32 o.a) then
          BitVec.ofNat 64 (2 ^ 22 + st.lo32 o.a / 2 ^ 31 * 2 ^ 21 + st.lo32 o.a % 2 ^ 21) else 0)))

/-- 03 R103, 04 R111, 06 R187: a verdict NaN in an operand that is interpreted as FP32 raises VERDICT-OPERAND with its
position and its bits; the strand's registers, predicates and FCW are unchanged. -/
def Obligations.VerdictNaNOperandFaults : Prop :=
  ∀ (s : State) (c : CoreId) (n : Nat) (st : Strand),
    (∀ p ∈ fpRRR, ∀ o : OpDAB, Ready s c n st o.g [o.a, o.b, o.d] →
      (isVN .f32 (st.lo32 o.a) = true → exec (p.1 o) s = .next (s.takeFault c n st (fVerdict 0 (st.lo32 o.a)))) ∧
      (isVN .f32 (st.lo32 o.a) = false → isVN .f32 (st.lo32 o.b) = true →
        exec (p.1 o) s = .next (s.takeFault c n st (fVerdict 1 (st.lo32 o.b))))) ∧
    (∀ p ∈ fpFused, ∀ o : OpDABC, Ready s c n st o.g [o.a, o.b, o.c, o.d] →
      isVN .f32 (st.lo32 o.a) = false → isVN .f32 (st.lo32 o.b) = false → isVN .f32 (st.lo32 o.c) = true →
      exec (p.1 o) s = .next (s.takeFault c n st (fVerdict 2 (st.lo32 o.c)))) ∧
    (∀ p ∈ fpRR, ∀ o : OpDA, Ready s c n st o.g [o.a, o.d] → isVN .f32 (st.lo32 o.a) = true →
      exec (p.1 o) s = .next (s.takeFault c n st (fVerdict 0 (st.lo32 o.a)))) ∧
    (∀ p ∈ fpCmps, ∀ o : OpCmp, Ready s c n st o.g [o.a, o.b] → isVN .f32 (st.lo32 o.a) = true →
      exec (p.1 o) s = .next (s.takeFault c n st (fVerdict 0 (st.lo32 o.a))))

/-- 04 R139, R141: MFS reads the special register of each number of 01 R23; MTS writes STAT.WTRAP and STAT.HEAVY, FCW, JW and PRED, and
no other special register. -/
def Obligations.SpecialRegisterReadsAndWrites : Prop :=
  (∀ (g : Guard) (d : Reg) (s : State) (c : CoreId) (n : Nat) (st : Strand), Ready s c n st g [d] →
      let at' := fun (k : Nat) (v : Word) => exec (.mfs ⟨g, d, k⟩) s = .next (s.wrote c n st d v)
      at' 0x00 st.statWord ∧ at' 0x01 st.fcw.toWord ∧ at' 0x02 (st.jw &&& ~~~7) ∧ at' 0x03 (pixWord st) ∧
      at' 0x04 (BitVec.ofNat 64 (st.sid % 2 ^ 32)) ∧ at' 0x05 (BitVec.ofNat 64 (st.ldep % 8)) ∧
      at' 0x06 (BitVec.ofNat 64 (8 * b01 (st.pred 3) + 4 * b01 (st.pred 2) + 2 * b01 (st.pred 1) + b01 (st.pred 0))) ∧
      (∀ j < 4, at' (0x08 + j) (((st.loops.getD j Loop.reset).ls.setWidth 56).signExtend 64)) ∧
      (∀ j < 4, at' (0x0C + j) (((st.loops.getD j Loop.reset).le.setWidth 56).signExtend 64)) ∧
      (∀ j < 4, at' (0x10 + j) (st.loops.getD j Loop.reset).lc) ∧
      at' 0x18 (BitVec.ofNat 64 (st.fmta % 64)) ∧ at' 0x19 (BitVec.ofNat 64 (st.fmtb % 64)) ∧
      at' 0x1A ((st.sca.setWidth 56).signExtend 64) ∧ at' 0x1B ((st.scb.setWidth 56).signExtend 64) ∧
      at' 0x20 (st.task &&& 0x7FFFFFF) ∧ at' 0x21 (st.gang &&& 0xFFFFFFFF) ∧ at' 0x22 (st.crew &&& 0x3F3F) ∧
      at' 0x24 (BitVec.ofNat 64 (st.pinc % 2 ^ 13)) ∧
      (∃ v : Word, at' 0x25 v ∧ v.getLsbD 0 = true ∧ (∀ i, 1 ≤ i → i < 5 → v.getLsbD i = (s.core c).cfg.mask.testBit i) ∧
        v.toNat < 32)) ∧
  (∀ (g : Guard) (d : Reg) (s : State) (c : CoreId) (n : Nat) (st : Strand), Ready s c n st g [d] →
      let v := st.reg d
      exec (.mts ⟨g, d, 0x00⟩) s = .next (s.done c n
        { st with stat := { st.stat with wtrap := v.getLsbD 5, heavy := v.getLsbD 1 } }) ∧
      exec (.mts ⟨g, d, 0x01⟩) s = .next (s.done c n { st with fcw := Fcw.ofWord v }) ∧
      exec (.mts ⟨g, d, 0x02⟩) s = .next (s.done c n { st with jw := v &&& ~~~7 }) ∧
      exec (.mts ⟨g, d, 0x06⟩) s = .next (s.done c n
        { st with p := #v[v.getLsbD 0, v.getLsbD 1, v.getLsbD 2, v.getLsbD 3] }) ∧
      (∀ k ∈ specialNumbers, k ≠ 0x00 → k ≠ 0x01 → k ≠ 0x02 → k ≠ 0x06 →
        exec (.mts ⟨g, d, k⟩) s = .next (s.done c n st)))

/-- 02 R56: an instruction whose guard is false has no effect: the strand continues at the next instruction. -/
def Obligations.FalseGuardHasNoEffect : Prop :=
  ∀ (i : Instr) (g : Guard) (s : State) (c : CoreId) (n : Nat) (st : Strand),
    guardOf i = some g → s.curStrand = some (c, n, st) → guardHolds st g = false →
    exec i s = .next (s.done c n st)

/-- 02 R68, 06 R187: a member of page 5 raises PRIVILEGE in a strand with STAT.PRIV = 0, naming page, major and fn. -/
def Obligations.PrivilegedMembersFault : Prop :=
  ∀ (i : Instr) (w : Nat) (g : Guard) (s : State) (c : CoreId) (n : Nat) (st : Strand),
    privilegedInfo i = some w → guardOf i = some g → s.curStrand = some (c, n, st) → guardHolds st g = true →
    st.stat.priv = false →
    exec i s = .next (s.takeFault c n st (fPrivilege 0 (BitVec.ofNat 64 w)))

/-- 01 R33, 04 R115: a LOAD-pending source or destination holds a register instruction back, with class WAIT-MEM; MOV copies a
HANDLE-pending source together with its bit. -/
def Obligations.PendingRegistersAtIssue : Prop :=
  (∀ (s : State) (c : CoreId) (n : Nat) (st : Strand) (r : Reg),
      s.curStrand = some (c, n, st) → st.isPort r = false → st.pending r = .load →
      (∀ p ∈ intRRR, ∀ o : OpDAB, guardHolds st o.g = true → r = o.a ∨ r = o.b ∨ r = o.d →
        exec (p.1 o) s = .next (s.putStrand c n { st with run := .blocked .mem })) ∧
      (∀ p ∈ intRR, ∀ o : OpDA, guardHolds st o.g = true → r = o.a ∨ r = o.d →
        exec (p.1 o) s = .next (s.putStrand c n { st with run := .blocked .mem })) ∧
      (∀ p ∈ intCmp, ∀ o : OpCmp, guardHolds st o.g = true → r = o.a ∨ r = o.b →
        exec (p.1 o) s = .next (s.putStrand c n { st with run := .blocked .mem }))) ∧
  (∀ (o : OpDA) (s : State) (c : CoreId) (n : Nat) (st : Strand),
      s.curStrand = some (c, n, st) → guardHolds st o.g = true → st.stat.qbound = false →
      st.pending o.a = .handle → st.pending o.d ≠ .load →
      exec (.mov o) s = .next (s.done c n { st with g := st.g.set o.d st.g[o.a], pend := st.pend.set o.d .handle }))

/-- 05 R159 to R164, R180, R182: branches, calls, loops, NOP and the pins; JR and JALR to an odd address raise ALIGN with 2, and LOOP at
depth 4 raises ILLEGAL with 0x0C. -/
def Obligations.ControlFlowResultsAndFaults : Prop :=
  (∀ (s : State) (c : CoreId) (n : Nat) (st : Strand),
      let ready : Strand := { st with run := .ready, deadline := none }
      let goes : Word → Out := fun t => .next (s.putStrand c n (Strand.goTo ready t))
      (∀ o : OpBr, Ready s c n st o.g [] →
        exec (.br o) s = goes (if condHolds st o.cond then st.next + BitVec.ofInt 64 (2 * o.disp) else st.next)) ∧
      (∀ o : OpCall, Ready s c n st o.g [o.c] →
        exec (.call o) s = .next (s.putStrand c n
          (Strand.goTo (ready.setG o.c st.next) (st.next + BitVec.ofInt 64 (2 * o.disp))))) ∧
      (∀ o : OpA, Ready s c n st o.g [o.a] → (st.reg o.a).getLsbD 0 = false → exec (.jr o) s = goes (st.reg o.a)) ∧
      (∀ o : OpDA, Ready s c n st o.g [o.a, o.d] → (st.reg o.a).getLsbD 0 = false →
        exec (.jalr o) s = .next (s.putStrand c n (Strand.goTo (ready.setG o.d st.next) (st.reg o.a)))) ∧
      (∀ o : OpDN, Ready s c n st o.g [o.d] →
        let le := st.next + BitVec.ofNat 64 (2 * o.n)
        (st.reg o.d = 0 → exec (.loop o) s = goes le) ∧
        (st.reg o.d ≠ 0 → st.ldep < 4 →
          exec (.loop o) s = .next (s.putStrand c n (Strand.goTo
            { ready with ldep := st.ldep + 1,
                         loops := st.loops.setIfInBounds st.ldep { ls := st.next, le := le, lc := st.reg o.d } } st.next)))) ∧
      (∀ o : Op0, Ready s c n st o.g [] →
        exec (.nop o) s = goes st.next ∧
        (st.ldep = 0 → exec (.brkl o) s = goes st.next) ∧
        (0 < st.ldep → exec (.brkl o) s = .next (s.putStrand c n
          { ready with ldep := st.ldep - 1, pc := (st.loops.getD (st.ldep - 1) Loop.reset).le })) ∧
        exec (.pin o) s = .next (s.done c n { st with stat := { st.stat with pinhold := true } }) ∧
        exec (.unpin o) s = .next (s.done c n { st with stat := { st.stat with pinhold := false } }))) ∧
  (∀ (s : State) (c : CoreId) (n : Nat) (st : Strand),
      (∀ o : OpA, Ready s c n st o.g [o.a] → (st.reg o.a).getLsbD 0 = true →
        exec (.jr o) s = .next (s.takeFault c n st (fAlign (st.reg o.a) 2))) ∧
      (∀ o : OpDA, Ready s c n st o.g [o.a, o.d] → (st.reg o.a).getLsbD 0 = true →
        exec (.jalr o) s = .next (s.takeFault c n st (fAlign (st.reg o.a) 2))) ∧
      (∀ o : OpDN, Ready s c n st o.g [o.d] → st.reg o.d ≠ 0 → 4 ≤ st.ldep →
        exec (.loop o) s = .next (s.takeFault c n st (fIllegal 0x0C st.pc (chainInfo st.chain)))))

/-- 05 R163: where the next PC is LE of the innermost level, its count falls by one; the body starts again while the count is
not 0, and else the level ends and the check repeats for the level outside. Elsewhere the strand continues at the target. -/
def Obligations.LoopEndStep : Prop :=
  ∀ (st : Strand) (t : Word), st.ldep ≤ 4 →
    let j := st.ldep - 1
    let l := st.loops.getD j Loop.reset
    let counted : Strand := { st with loops := st.loops.setIfInBounds j { l with lc := l.lc - 1 } }
    (st.ldep = 0 → st.goTo t = { st with pc := t }) ∧
    (0 < st.ldep → l.le ≠ t → st.goTo t = { st with pc := t }) ∧
    (0 < st.ldep → l.le = t → l.lc ≠ 1 → st.goTo t = { counted with pc := l.ls }) ∧
    (0 < st.ldep → l.le = t → l.lc = 1 → st.goTo t = Strand.goTo { counted with ldep := j } t)

/-- 06 R187 to R189: a fault stops the strand, leaves its registers as they are, and sends one fault record to the home of its
context; the record names kind, reason, PC, SID, the core's LN, ADDR and INFO. -/
def Obligations.FaultRecordOfAStrand : Prop :=
  ∀ (s : State) (c : CoreId) (n : Nat) (st : Strand) (f : FaultInfo) (l : Nat),
    st.lslot = some l → f.reason < 256 →
    let t := s.takeFault c n st f
    t.strandAt c n = some { st with run := .faulted, deadline := none, trap := none, hold := none, nest := none, rbuf := [], bulk := none } ∧
    t.mem = s.mem ∧
    t.net = s.net ++ [⟨s.nextId, c, s.homeSlice (s.partOf c) st.asid c, false, some ⟨s.partOf c, l⟩, 0,
      .faultRec (s.partOf c) l ⟨0, f.reason, f.kind, s.now c, st.sid, (s.core c).cfg.ln, st.pc, f.addr, f.info, 0⟩⟩]

/-- 05 R181, 06 R191 to R196: TRAP with a handler, by a drained strand that is no handler, freezes the strand in a frame whose PC is that
of the next instruction, and starts the handler; without a handler it is ILLEGAL with reason 0x0D, and in a handler with 0x0E. -/
def Obligations.TrapEntersTheHandlerOrFaults : Prop :=
  (∀ (o : OpTrap) (s : State) (c : CoreId) (n : Nat) (st : Strand),
      Ready s c n st o.g [] → o.code < 32 → st.handlerOf = none → (s.handlerPair c st).1 ≠ 0 →
      st.posts = [] → st.lds = [] → (s.core c).vectorOpen st.uid = false →
      ∃ t h fr, exec (.trap o) s = .next t ∧
        t.strandAt c n = some h ∧ List.lookup n (t.core c).frozen = some fr ∧
        fr.kind = 1 ∧ fr.ilen = 2 * st.chain.length ∧ fr.st.pc = st.advance.pc ∧ fr.st.g = st.g ∧ fr.st.p = st.p ∧
        fr.info[0] = BitVec.ofNat 64 o.code ∧
        h.pc = (s.handlerPair c st).1 ∧ h.g[0] = (s.handlerPair c st).2 ∧ h.g[1] = BitVec.ofNat 64 (0x30008000 + 1024 * n) ∧
        h.g[2] = BitVec.ofNat 64 (2 ^ 56 + 2 * st.chain.length * 2 ^ 48 + 2 ^ 33) ∧
        h.stat.priv = true ∧ h.stat.heavy = true ∧ h.stat.pinhold = true ∧ h.handlerOf = some n ∧ t.mem = s.mem) ∧
  (∀ (o : OpTrap) (s : State) (c : CoreId) (n : Nat) (st : Strand), Ready s c n st o.g [] →
      ∃ st', st'.g = st.g ∧ st'.p = st.p ∧ st'.pc = st.pc ∧ st'.fcw = st.fcw ∧
        (st.handlerOf ≠ none →
          exec (.trap o) s = .next (s.takeFault c n st' (fIllegal 0x0E st.pc (chainInfo st.chain)))) ∧
        (st.handlerOf = none → (s.handlerPair c st).1 = 0 →
          exec (.trap o) s = .next (s.takeFault c n st' (fIllegal 0x0D st.pc (chainInfo st.chain)))))

/-- 05 R143, R147 to R149: a load of the strand's own core reads its bytes, LD sign-extended and LDU zero-extended, under every address
form; .FE waits for FULL, .FEC empties the granule, .FT tests FULL into p3 and leaves the destination of an empty granule as it is.
No byte of memory changes. -/
def Obligations.LoadsReadTheirBytes : Prop :=
  (∀ (o : OpLoad) (s s' : State) (c : CoreId) (n pa : Nat) (st : Strand) (leaf : Word) (signed : Bool),
      let z := bytesOf o.size
      let major := if signed then 12 else 13
      Ready s c n st o.g [o.a, o.d] →
      Local s c n st o.form (st.reg o.a) (o.imm * z) 1 z (BitVec.ofNat 64 (256 * major)) pa leaf s' →
      (o.fe ≠ .none → FeAllowed o.form pa leaf ∧ s'.full pa = true) →
      (o.fe = .fec → s'.quietWrites c st) →
      let v := ofLe (memRead s'.mem pa z)
      let i : Instr := if signed then .ld o else .ldu o
      let w : Word := if signed then signedWord v z else BitVec.ofNat 64 v
      let st' := if o.fe = .ft then st.setP 3 true else st
      ∃ t, exec i s = .next t ∧ t.strandAt c n = some (st'.setG o.d w).finish ∧ t.mem = s'.mem ∧
        (o.fe ≠ .fec → t.feEmpty = s'.feEmpty) ∧
        (o.fe = .fec → ∀ a, t.full a = (s'.full a && decide (a / 16 ≠ pa / 16)))) ∧
  (∀ (o : OpLoad) (s s' : State) (c : CoreId) (n pa : Nat) (st : Strand) (leaf : Word) (signed : Bool),
      let z := bytesOf o.size
      let major := if signed then 12 else 13
      Ready s c n st o.g [o.a, o.d] →
      Local s c n st o.form (st.reg o.a) (o.imm * z) 1 z (BitVec.ofNat 64 (256 * major)) pa leaf s' →
      FeAllowed o.form pa leaf → s'.full pa = false →
      let i : Instr := if signed then .ld o else .ldu o
      (o.fe = .ft → ∃ t, exec i s = .next t ∧ t.strandAt c n = some (st.setP 3 false).finish ∧ t.mem = s'.mem ∧
        t.feEmpty = s'.feEmpty) ∧
      (o.fe = .fe ∨ o.fe = .fec → ∃ t r, exec i s = .next t ∧
        t.strandAt c n = some { st with run := .await .mem r, deadline := none } ∧ r.pa = pa ∧
        (t.core c).waiters.map (fun w => w.ref) = [⟨c, n, st.uid⟩] ∧ t.mem = s'.mem ∧ t.feEmpty = s'.feEmpty))

/-- 05 R148, R149: a store to the strand's own core writes the low bytes of g[d] at the resolved address and no other byte;
.FF and .EF leave the granule FULL, and a plain store leaves every full-empty bit. The registers keep their values. -/
def Obligations.StoresWriteTheirBytes : Prop :=
  ∀ (o : OpStore) (s s' : State) (c : CoreId) (n pa : Nat) (st : Strand) (leaf : Word),
    let z := bytesOf o.size
    Ready s c n st o.g [o.a, o.d] →
    Local s c n st o.form (st.reg o.a) (o.imm * z) 2 z (BitVec.ofNat 64 (256 * 14)) pa leaf s' →
    s'.quietWrites c st → (o.fe ≠ .none → FeAllowed o.form pa leaf) → (o.fe = .ef → s'.full pa = false) →
    (o.rl = true → s'.settled c st false) →
    ∃ t, exec (.st o) s = .next t ∧ t.strandAt c n = some st.finish ∧
      memRead t.mem pa z = leBytes z (st.reg o.d).toNat ∧
      (∀ a, a < pa ∨ pa + z ≤ a → memGet t.mem a = memGet s'.mem a) ∧
      (∀ a, t.full a = (s'.full a || decide (o.fe ≠ .none ∧ a / 16 = pa / 16)))

/-- 05 R153: LDS leaves its destination LOAD-pending, keeps a record of the load and continues; the reply of its own core is on
the way with the bytes read. -/
def Obligations.LdsLeavesItsDestinationPending : Prop :=
  ∀ (o : OpLoad) (s s' : State) (c : CoreId) (n pa : Nat) (st : Strand) (leaf : Word),
    let z := bytesOf o.size
    Ready s c n st o.g [o.a, o.d] → o.fe ≠ .ft →
    Local s c n st o.form (st.reg o.a) (o.imm * z) 1 z (BitVec.ofNat 64 (256 * 15)) pa leaf s' →
    (o.fe ≠ .none → FeAllowed o.form pa leaf ∧ s'.full pa = true) → (o.fe = .fec → s'.quietWrites c st) →
    ∃ t id m sh va, exec (.lds o) s = .next t ∧
      t.strandAt c n = some (Strand.finish
        { st with pend := st.pend.set o.d .load, lds := [⟨id, st.pc, o.d, z, o.aq, va, sh⟩] }) ∧
      t.mem = s'.mem ∧ t.net = s'.net ++ [m] ∧ m.dst = c ∧ m.isReturn = true ∧
      (∃ r, m.body = .reply ⟨c, n, st.uid⟩ r (.value (BitVec.ofNat 64 (ofLe (memRead s'.mem pa z))) (s'.full pa) none 0) ∧
        r.cont = .lds id o.d)

/-- 05 R155, R156: an atomic on the strand's own core writes the new value of its rule and gives the old one, sign-extended.
AMO.CAS writes its new value, and p3 := 1, only where the word equals the expected value. No other byte changes. -/
def Obligations.AtomicsReadAndWrite : Prop :=
  ∀ (s s' : State) (c : CoreId) (n pa : Nat) (st : Strand) (leaf : Word),
    (∀ p ∈ amoWord, ∀ o : OpAmo, wdSize o.size = true →
      let z := bytesOf o.size
      Ready s c n st o.g [o.a, o.b, o.d] →
      Local s c n st o.form (st.reg o.a) 0 4 z (BitVec.ofNat 64 (256 * 16 + p.2.1)) pa leaf s' →
      s'.quietWrites c st → (o.ord = .ar → s'.settled c st false) →
      let old := ofLe (memRead s'.mem pa z)
      ∃ t, exec (p.1 o) s = .next t ∧ t.strandAt c n = some (st.setG o.d (signedWord old z)).finish ∧
        memRead t.mem pa z = leBytes z (p.2.2 z old (st.reg o.b)) ∧
        (∀ a, a < pa ∨ pa + z ≤ a → memGet t.mem a = memGet s'.mem a)) ∧
    (∀ o : OpAmoC, wdSize o.size = true →
      let z := bytesOf o.size
      Ready s c n st o.g [o.a, o.b, o.c, o.d] →
      Local s c n st o.form (st.reg o.a) 0 4 z (BitVec.ofNat 64 (256 * 16 + 1)) pa leaf s' →
      s'.quietWrites c st → (o.ord = .ar → s'.settled c st false) →
      let old := ofLe (memRead s'.mem pa z)
      let same := decide (old = (st.reg o.b).toNat % 2 ^ (8 * z))
      ∃ t, exec (.amoCas o) s = .next t ∧
        t.strandAt c n = some ((st.setP 3 same).setG o.d (signedWord old z)).finish ∧
        memRead t.mem pa z = (if same then leBytes z (st.reg o.c).toNat else memRead s'.mem pa z) ∧
        (∀ a, a < pa ∨ pa + z ≤ a → memGet t.mem a = memGet s'.mem a))

/-- 05 R157, R158, 07 R215: a reduction at the strand's own core joins a merge group of its line, which holds the operand at its
place; memory changes when the group closes. FP reductions are of size W with an operand that is no verdict NaN. -/
def Obligations.ReductionsOpenAMergeGroup : Prop :=
  ∀ p ∈ reductions, ∀ (o : OpRed) (s s' : State) (c : CoreId) (n pa : Nat) (st : Strand) (leaf : Word),
    let z := bytesOf o.size
    wdSize o.size = true → (p.2.2.isFp = true → o.size = .w ∧ (decFp .f32 (st.lo32 o.b)).isNaN = false) →
    Ready s c n st o.g [o.a, o.b] →
    Local s c n st o.form (st.reg o.a) 0 5 z (BitVec.ofNat 64 (256 * 17 + p.2.1 % 4)) pa leaf s' →
    (o.rl = true → s'.settled c st false) →
    ∃ t g, exec (p.1 o) s = .next t ∧ t.strandAt c n = some st.finish ∧ t.mem = s'.mem ∧ t.feEmpty = s'.feEmpty ∧
      (t.core c).merges = [g] ∧ g.line = pa / 64 ∧ g.op = p.2.2 ∧ g.size = z ∧
      g.vals = [(pa % 64, (st.reg o.b).toNat % 2 ^ (8 * z))]

/-- 05 R170, R171: a wait on a word of the strand's own core that holds completes at once with p3 := 1; one that does not hold completes with
p3 := 0 where its limit has run out and STAT.WTRAP is 0, as with a limit of 0, and else parks the strand. WAITANY does not hold when it
issues. No byte of memory changes. -/
def Obligations.WaitsOnAWord : Prop :=
  ∀ (s s' : State) (c : CoreId) (n pa : Nat) (st : Strand) (leaf : Word),
    (∀ p ∈ waits, ∀ o : OpWait, wdSize o.size = true →
      let z := bytesOf o.size
      Ready s c n st o.g [o.a, o.b, o.d] →
      Local s c n st o.form (st.reg o.a) 0 1 z (BitVec.ofNat 64 (256 * 23 + p.2.1)) pa leaf s' →
      let x := ofLe (memRead s'.mem pa z)
      (p.2.2 z x (st.reg o.b) = true → ∃ t, exec (p.1 o) s = .next t ∧
        t.strandAt c n = some (st.setP 3 true).finish ∧ t.mem = s'.mem) ∧
      (p.2.2 z x (st.reg o.b) = false → s'.isDue (s.limitAt st (st.reg o.d)) = true → st.stat.wtrap = false →
        ∃ t, exec (p.1 o) s = .next t ∧ t.strandAt c n = some (st.setP 3 false).finish ∧ t.mem = s'.mem) ∧
      (p.2.2 z x (st.reg o.b) = false → s'.isDue (s.limitAt st (st.reg o.d)) = false → ∃ t r, exec (p.1 o) s = .next t ∧
        t.strandAt c n = some { st with run := .await .mem r, deadline := s.limitAt st (st.reg o.d) } ∧ r.pa = pa ∧
        (t.core c).waiters.map (fun w => w.ref) = [⟨c, n, st.uid⟩] ∧ t.mem = s'.mem)) ∧
    (∀ o : OpWaitAny, wdSize o.size = true →
      let z := bytesOf o.size
      Ready s c n st o.g [o.a, o.d] →
      Local s c n st o.form (st.reg o.a) 0 1 z (BitVec.ofNat 64 (256 * 23 + 3)) pa leaf s' →
      (s'.isDue (s.limitAt st (st.reg o.d)) = true → st.stat.wtrap = false →
        ∃ t, exec (.waitany o) s = .next t ∧ t.strandAt c n = some (st.setP 3 false).finish ∧ t.mem = s'.mem) ∧
      (s'.isDue (s.limitAt st (st.reg o.d)) = false → ∃ t r, exec (.waitany o) s = .next t ∧
        t.strandAt c n = some { st with run := .await .mem r, deadline := s.limitAt st (st.reg o.d) } ∧ r.pa = pa ∧
        (t.core c).waiters.map (fun w => w.ref) = [⟨c, n, st.uid⟩] ∧ t.mem = s'.mem))

/-- 01 R40, R42, R43: Resolve of the forms that need no translation: the window of each form; then reachability, control space and the
privileged part of the DRAM slice, once the PA of a device location is known. -/
def Obligations.ResolveOfUntranslatedForms : Prop :=
  (∀ (s : State) (x : XCtx) (st : Strand) (base info : Word) (off : Int) (kind : Nat),
      let c := x.core
      let o : Int := ((base.toNat % 2 ^ 30 : Nat) : Int) + off
      let bound : Form → Tr := fun f => .fault (fBound f base (BitVec.ofInt 64 off)) s
      let found : Form → Int → Tr := fun f pa => s.checkPa c x.priv f info pa.toNat 0 s
      (base.toNat + off < 0 ∨ 2 ^ 30 ≤ base.toNat + off → s.resolve x st .loc base off kind info = bound .loc) ∧
      (0 ≤ base.toNat + off → base.toNat + off < 2 ^ 30 →
        s.resolve x st .loc base off kind info = found .loc (coreBase c + (base.toNat + off))) ∧
      (base.toNat / 2 ^ 46 ≠ 0 ∨ o < 0 ∨ 2 ^ 30 ≤ o → s.resolve x st .rel base off kind info = bound .rel ∧
        s.resolve x st .ln base off kind info = bound .ln) ∧
      (base.toNat / 2 ^ 46 = 0 → 0 ≤ o → o < 2 ^ 30 →
        let dx : Int := ((base.toNat / 2 ^ 38 % 256 : Nat) : Int)
        let dy : Int := ((base.toNat / 2 ^ 30 % 256 : Nat) : Int)
        let tx : Int := c.x + (if dx ≥ 128 then dx - 256 else dx)
        let ty : Int := c.y + (if dy ≥ 128 then dy - 256 else dy)
        let x0 : Int := ((st.gang.toNat / 2 ^ 16 % 256 : Nat) : Int)
        let y0 : Int := ((st.gang.toNat / 2 ^ 24 % 256 : Nat) : Int)
        let inside := x0 ≤ tx ∧ tx ≤ x0 + ((st.gang.toNat / 2 ^ 8 % 16 : Nat) : Int) ∧ y0 ≤ ty ∧ ty ≤ y0 + ((st.gang.toNat / 2 ^ 12 % 16 : Nat) : Int)
        (¬ inside → s.resolve x st .rel base off kind info = bound .rel) ∧
        (inside → tx < 256 → ty < 256 → s.resolve x st .rel base off kind info =
          found .rel (coreBase ⟨c.w, tx.toNat, ty.toNat⟩ + o)) ∧
        (∀ h, s.lnCore (s.partOf c) (base.toNat / 2 ^ 30) = some h →
          s.resolve x st .ln base off kind info = found .ln (coreBase h + o)) ∧
        (s.lnCore (s.partOf c) (base.toNat / 2 ^ 30) = none → s.resolve x st .ln base off kind info = bound .ln)) ∧
      (x.priv = false →
        s.resolve x st .phys base off kind info = .fault (fPrivilege (BitVec.ofInt 64 (base.toNat + off)) info) s) ∧
      (x.priv = true → base.toNat + off < 0 ∨ 2 ^ 52 ≤ base.toNat + off →
        s.resolve x st .phys base off kind info = bound .phys) ∧
      (x.priv = true → 0 ≤ base.toNat + off → base.toNat + off < 2 ^ 52 →
        s.resolve x st .phys base off kind info = found .phys (base.toNat + off))) ∧
  (∀ (s : State) (c : CoreId) (priv : Bool) (form : Form) (info leaf : Word) (pa : Nat), isHost pa = false →
      let lo := pa % 2 ^ 30
      let r := s.checkPa c priv form info pa leaf s
      let local' := form = .loc ∨ form = .rel ∨ form = .ln
      (s.reachable c priv pa = false → r = .fault (fAccess (BitVec.ofNat 64 pa) 0) s) ∧
      (s.reachable c priv pa = true →
        (0x30000000 ≤ lo → lo ≤ 0x3000FFFF → priv = false → r = .fault (fPrivilege (BitVec.ofNat 64 pa) info) s) ∧
        (0x30000000 ≤ lo → lo ≤ 0x3000FFFF → priv = true → r = .ok pa leaf s) ∧
        (lo ≤ 0x1FFFFFFF → priv = false ∧ local' → r = .fault (fPrivilege (BitVec.ofNat 64 pa) info) s) ∧
        (lo ≤ 0x1FFFFFFF → ¬ (priv = false ∧ local') → r = .ok pa leaf s) ∧
        (0x20000000 ≤ lo → lo ≤ 0x200FFFFF → r = .ok pa leaf s) ∧
        (0x20100000 ≤ lo → ¬ (0x30000000 ≤ lo ∧ lo ≤ 0x3000FFFF) → r = .fault (fAccess (BitVec.ofNat 64 pa) 0) s)))

/-- 05 R143: a fault of Resolve ends a load or a store with that fault; an address that is no multiple of the size raises ALIGN
with the size. -/
def Obligations.ScalarAccessFaults : Prop :=
  ∀ (s s' : State) (c : CoreId) (n pa : Nat) (st : Strand) (leaf : Word) (f : FaultInfo),
    st.lds = [] →
    (∀ o : OpLoad, Ready s c n st o.g [o.a, o.d] →
      let z := bytesOf o.size
      let r := s.resolve (scalarCtx c n st) st o.form (st.reg o.a) (o.imm * z) 1 (BitVec.ofNat 64 (256 * 12))
      let va := if Form.isVa o.form then BitVec.ofInt 64 ((st.reg o.a).toNat + o.imm * z) else BitVec.ofNat 64 pa
      (r = .fault f s' → exec (.ld o) s = .next (s'.takeFault c n st f)) ∧
      (r = .ok pa leaf s' → pa % z ≠ 0 → exec (.ld o) s = .next (s'.takeFault c n st (fAlign va z)))) ∧
    (∀ o : OpStore, Ready s c n st o.g [o.a, o.d] →
      let z := bytesOf o.size
      let r := s.resolve (scalarCtx c n st) st o.form (st.reg o.a) (o.imm * z) 2 (BitVec.ofNat 64 (256 * 14))
      let va := if Form.isVa o.form then BitVec.ofInt 64 ((st.reg o.a).toNat + o.imm * z) else BitVec.ofNat 64 pa
      (r = .fault f s' → exec (.st o) s = .next (s'.takeFault c n st f)) ∧
      (r = .ok pa leaf s' → pa % z ≠ 0 → exec (.st o) s = .next (s'.takeFault c n st (fAlign va z))))

/-- 05 R144, R146, R150: under a form that does not move the strand, a plain load of another core's location sends one request and
the strand waits; a plain store is posted, and the strand continues with the operation outstanding. Under VA.GO an unpinned strand
departs for the home instead. -/
def Obligations.AccessesOfAnotherCore : Prop :=
  ∀ (s s' : State) (c : CoreId) (n pa : Nat) (st : Strand) (leaf : Word),
    homeOf pa ≠ c → (homeOf pa).w = c.w → isHost pa = false → lfMirror leaf = false → st.lds = [] → st.posts = [] →
    (∀ o : OpLoad, let z := bytesOf o.size
      Ready s c n st o.g [o.a, o.d] → o.fe = .none → pa % z = 0 → o.form ≠ .va →
      s.resolve (scalarCtx c n st) st o.form (st.reg o.a) (o.imm * z) 1 (BitVec.ofNat 64 (256 * 12)) = .ok pa leaf s' →
      ∃ t st' r, exec (.ld o) s = .next t ∧ t.strandAt c n = some st' ∧ st'.g = st.g ∧ st'.pc = st.pc ∧ t.mem = s'.mem ∧
        r.pa = pa ∧ r.op = .load z .none ∧
        (o.form = .go → st.pinned = false → st'.run = .departing (homeOf pa) (some r) ∧ t.net = s'.net) ∧
        (o.form ≠ .go ∨ st.pinned = true → st'.run = .await .mem r ∧
          t.net = s'.net ++ [⟨s'.nextId, c, homeOf pa, false, s'.tagOf c st.lslot, 0, .request ⟨c, n, st.uid⟩ r⟩])) ∧
    (∀ o : OpStore, let z := bytesOf o.size
      Ready s c n st o.g [o.a, o.d] → o.fe = .none → o.rl = false → pa % z = 0 → o.form ≠ .va → st.stat.log = false →
      o.form ≠ .go ∨ st.pinned = true →
      s.resolve (scalarCtx c n st) st o.form (st.reg o.a) (o.imm * z) 2 (BitVec.ofNat 64 (256 * 14)) = .ok pa leaf s' →
      ∃ t p m, exec (.st o) s = .next t ∧ t.strandAt c n = some (Strand.finish { st with posts := [p] }) ∧ t.mem = s'.mem ∧
        p.pa = pa ∧ p.data = st.reg o.d ∧ p.size = z ∧ t.net = s'.net ++ [m] ∧ m.src = c ∧ m.dst = homeOf pa ∧
        m.body = .post ⟨c, n, st.uid⟩ p leaf st.asid false st.lslot)

/-- 05 R166, R168, R169, R180: SPAWN, EXIT, JOIN and YIELD of a strand without a join word, where nothing is outstanding. A child
takes the place room gives and the state 01 R30 names; an EXIT frees the slot; YIELD gives it to the first waiting coat. -/
def Obligations.StrandsBeginAndEnd : Prop :=
  ∀ (s : State) (c : CoreId) (n : Nat) (st : Strand),
    (∀ (o : OpSpawn) (place : Nat), Ready s c n st o.g [] →
      (st.nest = none ∧ (s.core c).room = some place) ∨ (st.nest = some place ∧ place ≠ n) → place < 32 → st.jw = 0 →
      s.settled c st false → (∀ r, st.pending r ≠ .load) →
      ∃ t child, exec (.spawn o) s = .next t ∧ t.strandAt c n = some st.finish ∧ t.strandAt c place = some child ∧
        child.pc = st.next + BitVec.ofInt 64 (2 * o.disp) ∧
        (∀ r : Reg, child.reg r = if o.heavy || decide (r.val < 8) then st.reg r else 0) ∧
        child.p = Vector.replicate 4 false ∧ child.fcw = { st.fcw with flags := Flags.none } ∧
        child.stat.heavy = o.heavy ∧ child.stat.priv = st.stat.priv ∧ child.jw = st.jw ∧ child.gang = st.gang ∧
        child.crew.getLsbD 5 = true ∧ child.ldep = 0 ∧ child.sid = (s.core c).cfg.ln * 65536 + (s.core c).created ∧
        t.mem = s.mem) ∧
    (∀ o : Op0, Ready s c n st o.g [] → st.jw = 0 → s.settled c st true → (s.core c).vectorOpen st.uid = false →
      st.handlerOf = none → st.vctx = none → st.qb = none → (s.core c).rescue = none → (s.core c).cloak = [] →
      ∃ t, exec (.exit o) s = .next t ∧ t.strandAt c n = none ∧ t.mem = s.mem ∧
        (st.lslot = none ∨ st.spawned = true → t.net = s.net) ∧
        (∀ l d, st.lslot = some l → st.spawned = false → s.lnCore (s.partOf c) st.cln = some d →
          ∃ m, t.net = s.net ++ [m] ∧ m.dst = d ∧ m.body = .crewExit l st.member)) ∧
    (∀ o : Op0, Ready s c n st o.g [] →
      (st.jw = 0 → exec (.join o) s = .next (s.done c n st)) ∧
      ((s.core c).rescue = none → (s.core c).cloak = [] → exec (.yield o) s = .next (s.done c n st)) ∧
      (∀ x r, st.handlerOf = none → (s.core c).vectorOpen st.uid = false → (s.core c).rescue = none → (s.core c).cloak = x :: r →
        x.st.isStopped = false → x.mark ≠ .double →
        r.length + (((s.core c).heldPlaces.filter (· = 32)).length) < (s.core c).cloakDepth →
        ∃ t, exec (.yield o) s = .next t ∧ t.strandAt c n = some { x.strand with floor := [] } ∧
          (t.core c).cloak.map (fun y => y.st) = r.map (fun y => y.st) ++ [st.finish]))

/-- 05 R173 to R178: the members that ask the completion board of HERE, FCANCEL, and the fences of a strand with nothing
outstanding, which write the failure record to g[x] and clear it. -/
def Obligations.FuturesAndFences : Prop :=
  ∀ (s : State) (c : CoreId) (n : Nat) (st : Strand),
    (∀ o : OpA, Ready s c n st o.g [] → st.pending o.a ≠ .load → s.handleLocal c (st.reg o.a) = true →
      let b := (s.boardState (s.partOf c) (st.reg o.a)).1
      (2 ≤ b → exec (.fwait o) s = .next (s.done c n ((st.clearHandle o.a).setP 3 (decide (b = 2)))) ∧
        exec (.ftest o) s = .next (s.done c n ((st.clearHandle o.a).setP 3 true))) ∧
      (b < 2 → exec (.fwait o) s = .next (s.putStrand c n { st with run := .blocked .msg }) ∧
        exec (.ftest o) s = .next (s.done c n (st.setP 3 false)))) ∧
    (∀ o : OpDA, Ready s c n st o.g [] → st.pending o.a ≠ .load → st.pending o.d ≠ .load →
      s.handleLocal c (st.reg o.a) = true →
      let b := s.boardState (s.partOf c) (st.reg o.a)
      exec (.fstatus o) s = .next (s.wrote c n st o.d (BitVec.ofNat 64 (b.1 * 2 ^ 60 + b.2.1 % 2 ^ 32)))) ∧
    (∀ o : OpA, Ready s c n st o.g [] → st.pending o.a ≠ .load →
      let h := st.reg o.a
      (2 ≤ h.toNat / 2 ^ 62 → exec (.fcancel o) s = .next (s.done c n st)) ∧
      (∀ d, h.toNat / 2 ^ 62 < 2 → s.lnCore (s.partOf c) (h.toNat / 2 ^ 46 % 65536) = some d →
        ∃ t m, exec (.fcancel o) s = .next t ∧ t.strandAt c n = some st.finish ∧ t.net = s.net ++ [m] ∧
          m.dst = d ∧ m.body = .cancel h)) ∧
    (∀ o : OpX, Ready s c n st o.g [o.x] → st.lds = [] → st.posts = [] → s.noReds st →
      let t := s.wrote c n { st with failrec := FailRec.reset } o.x (BitVec.ofNat 64
        (b01 st.failrec.deadlink * 2 ^ 63 + b01 st.failrec.refused * 2 ^ 62 + st.failrec.fails * 2 ^ 32 + st.failrec.first))
      exec (.fenceCore o) s = .next t ∧ exec (.fenceClus o) s = .next t ∧
      (s.mirrorsOpen st.uid = false →
        exec (.fencePart o) s = .next t ∧ exec (.fenceFab o) s = .next t ∧ exec (.fenceSys o) s = .next t) ∧
      (s.mirrorsOpen st.uid = true → exec (.fencePart o) s = .next (s.putStrand c n { st with run := .blocked .mem })))

/-- 07 R237, 10 R343, 12 R386: the queries of a core and of a strand's place; each waits only for a LOAD-pending g[x]. -/
def Obligations.QueryResults : Prop :=
  ∀ (o : OpX) (s : State) (c : CoreId) (n : Nat) (st : Strand), s.curStrand = some (c, n, st) → guardHolds st o.g = true →
    st.stat.qbound = false →
    (st.pending o.x = .load → ∀ i ∈ [Instr.whereAt o, .lnum o, .tsc o, .crewinfo o, .feat o, .ganginfo o],
      exec i s = .next (s.putStrand c n { st with run := .blocked .mem })) ∧
    (st.pending o.x ≠ .load →
    let gives : Instr → Nat → Prop := fun i v => exec i s = .next (s.wrote c n st o.x (BitVec.ofNat 64 v))
    let gw := st.gang.toNat / 2 ^ 8 % 16 + 1
    let gh := st.gang.toNat / 2 ^ 12 % 16 + 1
    gives (.whereAt o) (c.w * 2 ^ 46 + c.x * 2 ^ 38 + c.y * 2 ^ 30) ∧
    gives (.lnum o) ((s.core c).cfg.ln % 65536) ∧
    gives (.tsc o) (s.now c) ∧
    gives (.crewinfo o) (st.cln * 65536 + st.crew.toNat / 2 ^ 8 % 64 * 256 + b01 (st.crew.getLsbD 5) * 32 + st.crew.toNat % 32) ∧
    gives (.feat o) ((s.core c).cfg.partfeat * 2 ^ 16 + (s.core c).cfg.mask) ∧
    gives (.ganginfo o) (st.task.toNat % 2 ^ 24 * 2 ^ 40 +
      (s.core ⟨c.w, st.gang.toNat / 2 ^ 16 % 256, st.gang.toNat / 2 ^ 24 % 256⟩).cfg.ln % 65536 * 2 ^ 24 +
      (st.gang.toNat / 2 ^ 4 % 16 * gw + st.gang.toNat % 16) * 256 + (gw * gh - 1)))


/-- 08 R244 to R246, R249, R256, R257, R259, R260, R268: the element-wise members issue into the queue, and every active element of
v[d] becomes the member's value; every other element and register is unchanged. No active operand is a verdict NaN. -/
def Obligations.VectorElementResults : Prop :=
  ∀ (s : State) (c : CoreId) (n : Nat) (st : Strand) (i : Nat) (x : VecCtx), s.vecRoom c n st →
    let ran := fun (ins : Instr) (d : Reg) (on : Nat → Bool) (f : Nat → Nat) (fl : Flags) (nars : Nat) =>
      ∃ x', exec ins s = .next (s.vecRan c n st i x x' fl nars) ∧ x.wrote d on f x'
    let rm := st.fcw.rm
    (∀ p ∈ vecPairs, ∀ o : OpVDAB, VReady s c n st i x o.g [] →
      let t := o.t.getD x.ty
      t ∈ p.2.2.1 → (p.2.1 = true → x.noVerdict o.m t o.a ∧ x.noVerdict o.m t o.b) →
      let f := fun j => p.2.2.2 t rm (x.elem t o.a j) (x.elem t o.b j)
      ran (p.1 o) o.d (x.isActive o.m) (fun j => (f j).1) (x.flags o.m (fun j => (f j).2)) 0) ∧
    (∀ p ∈ vecScalars, ∀ o : OpVDAB, VReady s c n st i x o.g [o.b] →
      let t := o.t.getD x.ty
      let y := (st.reg o.b).toNat % 2 ^ (match t with | .bf16 => 16 | .i8 => 8 | _ => 32)
      t ∈ typesArith → x.noVerdict o.m t o.a → (∀ q, elemFmt t = some q → isVN q y = false) →
      let f := fun j => p.2 t rm (x.elem t o.a j) y
      ran (p.1 o) o.d (x.isActive o.m) (fun j => (f j).1) (x.flags o.m (fun j => (f j).2)) 0) ∧
    (∀ p ∈ vecSingles, ∀ o : OpVDA, VReady s c n st i x o.g [] →
      let t := o.t.getD x.ty
      t ∈ p.2.2.1 → (p.2.1 = true → x.noVerdict o.m t o.a) →
      let f := fun j => p.2.2.2 t (x.elem t o.a j)
      ran (p.1 o) o.d (x.isActive o.m) (fun j => (f j).1) (x.flags o.m (fun j => (f j).2)) 0) ∧
    (∀ minus : Bool, ∀ o : OpVDABC, VReady s c n st i x o.g [] →
      ∀ q, (q = .f32 ∧ o.t.getD x.ty = .f32) ∨ (q = .bf16 ∧ o.t.getD x.ty = .bf16) →
      let t := o.t.getD x.ty
      x.noVerdict o.m t o.a → x.noVerdict o.m t o.b → x.noVerdict o.m t o.c →
      let f := fun j => fpFma q (if q = .f32 then rm else .rne) false minus
        (decFp q (x.elem t o.a j)) (decFp q (x.elem t o.b j)) (decFp q (x.elem t o.c j))
      ran (if minus then .vfms o else .vfma o) o.d (x.isActive o.m) (fun j => (f j).1) (x.flags o.m (fun j => (f j).2)) 0) ∧
    (∀ o : OpVDA, VReady s c n st i x o.g [o.a] → o.t.getD x.ty ∈ typesAll →
      ran (.vsplat o) o.d (x.isActive o.m) (fun _ => (st.reg o.a).toNat % 2 ^ Elem.bits' (o.t.getD x.ty)) Flags.none 0) ∧
    (∀ o : OpVDAB, VReady s c n st i x o.g [] → o.t.getD x.ty ∈ typesAll →
      ran (.vsel o) o.d (fun j => decide (j < x.vl))
        (fun j => if x.isActive o.m j then x.elem (o.t.getD x.ty) o.a j else x.elem (o.t.getD x.ty) o.b j) Flags.none 0) ∧
    (∀ o : OpVD, VReady s c n st i x o.g [] → o.t.getD x.ty ∈ typesShift →
      ran (.viota o) o.d (x.isActive o.m) (fun j => j) Flags.none 0) ∧
    (∀ (o : OpVDA) (t : Elem), VReady s c n st i x o.g [] → o.t = some t → x.noVerdict o.m t o.a →
      let f := fun j => vConvert t x.ty rm st.fcw.sat (x.elem t o.a j)
      ran (.vcvt o) o.d (x.isActive o.m) (fun j => (f j).1) (x.flags o.m (fun j => (f j).2.1))
        ((x.act o.m).filter (fun j => (f j).2.2)).length) ∧
    (∀ o : OpVDAB, VReady s c n st i x o.g [o.b] → o.t.getD x.ty = .f32 →
      ran (.vnrepv o) o.d (x.isActive o.m)
        (fun j => if isVN .f32 (x.elem .f32 o.a j) then st.lo32 o.b else x.elem .f32 o.a j) Flags.none 0)

/-- 08 R258, R259, R261, R268, R269: compares and VNMASK write a mask's active bits; VCOMP packs the active elements, VSCALE gives a
scale to each block, and VTOPKINS inserts its candidates into the list in v[d] and v[d + 1]. -/
def Obligations.VectorMaskAndListResults : Prop :=
  ∀ (s : State) (c : CoreId) (n : Nat) (st : Strand) (i : Nat) (x : VecCtx), s.vecRoom c n st →
    (∀ p ∈ vecCmps, ∀ o : OpVCmp, VReady s c n st i x o.g [] →
      let t := o.t.getD x.ty
      t ∈ typesArith → x.noVerdict o.m t o.a → x.noVerdict o.m t o.b →
      let f := fun j => cmpByType p.2.1 p.2.2 t (x.elem t o.a j) (x.elem t o.b j)
      ∃ x', exec (p.1 o) s = .next (s.vecRan c n st i x x' (x.flags o.m (fun j => (f j).2)) 0) ∧
        x.masked o.k (x.isActive o.m) (fun j => (f j).1 && (!o.conj || x.mask o.k j)) x') ∧
    (∀ o : OpVNMask, VReady s c n st i x o.g [] → o.t.getD x.ty = .f32 →
      ∃ x', exec (.vnmask o) s = .next (s.vecRan c n st i x x' Flags.none 0) ∧
        x.masked o.k (x.isActive o.m) (fun j => isVN .f32 (x.elem .f32 o.a j)) x') ∧
    (∀ o : OpVDA, VReady s c n st i x o.g [] → o.t.getD x.ty ∈ typesAll →
      ∃ x', exec (.vcomp o) s = .next (s.vecRan c n st i x x' Flags.none 0) ∧
        x.wrote o.d (fun j => decide (j < x.vl))
          (fun j => ((x.act o.m).map (x.elem (o.t.getD x.ty) o.a)).getD j 0) x') ∧
    (∀ o : OpVDA, VReady s c n st i x o.g [] → o.t.getD x.ty ∈ typesTaper → x.noVerdict o.m .f32 o.a →
      ∃ x', exec (.vscale o) s = .next (s.vecRan c n st i x x' Flags.none 0) ∧
        x.wrote o.d (fun j => decide (j < x.vl)) (fun b => if b * x.blen < x.vl then
          blockScale (((span (b * x.blen) x.blen).filter (x.isActive o.m)).map (x.elem .f32 o.a)) else 0) x') ∧
    (∀ o : OpVDAB, VReady s c n st i x o.g [] → o.t.getD x.ty = .f32 → o.d.val % 2 = 0 →
      let list := (x.act none).map (fun j => (x.cell o.d j, x.cell (o.d + 1) j))
      let out := (((span 0 256).filter (fun j => match o.m with | none => true | some k => x.mask k j)).map
        (fun j => (x.cell o.a j, x.cell o.b j))).foldl topkStep (list, false)
      ∃ x1 x', exec (.vtopkins o) s = .next (s.vecRan c n st i x x' { Flags.none with iv := out.2 } 0) ∧
        x.wrote o.d (fun j => decide (j < x.vl)) (fun j => (out.1.getD j (0, 0)).1) x1 ∧
        x1.wrote (o.d + 1) (fun j => decide (j < x.vl)) (fun j => (out.1.getD j (0, 0)).2) x')

/-- 08 R249 to R251, R253, R255: a verdict NaN in an active operand leaves the context as it is and rides in the queue; the grant of
its first chunk ends the strand with VERDICT-OPERAND at its PC. A full queue holds the strand back. The four lane groups of a
cycle go to the queues by their share counts, and the oldest instruction completes with its flags. -/
def Obligations.VectorQueuesAndGrants : Prop :=
  (∀ (s : State) (c : CoreId) (n : Nat) (st : Strand) (i : Nat) (x : VecCtx) (o : OpVDAB), VReady s c n st i x o.g [] →
    (8 ≤ ((s.core c).vq (n / 16)).length → exec (.vadd o) s = .next (s.putStrand c n { st with run := .blocked .mem })) ∧
    (∀ j, s.vecRoom c n st → o.t.getD x.ty = .f32 → x.isActive o.m j = true → isVN .f32 (x.elem .f32 o.a j) = true →
      (∀ k < j, x.isActive o.m k = true → isVN .f32 (x.elem .f32 o.a k) = false) →
      exec (.vadd o) s = .next ((s.vEnqueue c n ⟨n, st.uid, st.pc, max 1 ((x.vl + 15) / 16), 0, Flags.none, 0,
        some (0, x.elem .f32 o.a j), false⟩).done c n st))) ∧
  (∀ (k : Core) (i j : Nat) (e f : VQEntry), vqHead (k.vq 0) 0 = some (i, e) → vqHead (k.vq 1) 0 = some (j, f) →
    let w0 : Int := (max 1 (k.vshare.toNat % 16) : Nat)
    let w1 : Int := (max 1 (k.vshare.toNat / 16 % 16) : Nat)
    let c0 := k.vcount[0] + w0
    let c1 := k.vcount[1] + w1
    k.vArbiter = if c1 > c0 then (some 1, #v[c0, c1 - (w0 + w1)]) else (some 0, #v[c0 - (w0 + w1), c1])) ∧
  (∀ (s : State) (c : CoreId) (b : Nat) (e : VQEntry), b < 2 → (s.core c).vq b = [e] → (s.core c).vq (1 - b) = [] →
    e.granted < e.chunks →
    (e.poison = none → ∃ t, exec (.vectorGrant ⟨c⟩) s = .next t ∧
      (t.core c).vq b = [{ e with granted := min e.chunks (e.granted + 4) }] ∧ t.mem = s.mem ∧
      ∀ n, t.strandAt c n = s.strandAt c n) ∧
    (∀ p v st, e.poison = some (p, v) → s.strandAt c e.slot = some st → st.uid = e.uid → st.run ≠ .faulted →
      ∃ t st', exec (.vectorGrant ⟨c⟩) s = .next t ∧ t.strandAt c e.slot = some st' ∧ st'.run = .faulted ∧ st'.g = st.g ∧
        (t.core c).vq b = [])) ∧
  (∀ (s : State) (c : CoreId) (b : Nat) (e : VQEntry) (q : List VQEntry) (st : Strand), b < 2 → (s.core c).vq b = e :: q →
    e.holding = false → e.chunks ≤ e.granted → s.strandAt c e.slot = some st → st.uid = e.uid →
    ∃ t, exec (.vectorComplete ⟨c, b⟩) s = .next t ∧ (t.core c).vq b = q ∧ t.strandAt c e.slot = some (st.raise e.flags) ∧
      t.mem = s.mem)

/-- 08 R249, R262, R270: a member that returns a value enters the queue with its strand waiting, and once all its chunks are granted
writes g[d]: the sum, the largest or smallest active element, the position of the first largest, or the k-th best score. -/
def Obligations.VectorReductionResults : Prop :=
  ∀ (s : State) (c : CoreId) (n : Nat) (st : Strand) (i : Nat) (x : VecCtx) (o : OpVDA),
    let t := o.t.getD x.ty
    let xs := (x.act o.m).map (x.elem t o.a)
    let enters : Instr → Prop := fun ins => exec ins s = .next (s.vecEntered c n st i x none ⟨0, 0, false, [], [], Flags.none⟩)
    (VReady s c n st i x o.g [o.d] → s.vecRoom c n st → x.noVerdict o.m t o.a →
      (t ∈ typesDiv → enters (.vredsum o)) ∧
      (t ∈ typesArith → enters (.vredmax o) ∧ enters (.vredmin o) ∧ enters (.vredarg o)) ∧
      (t = .f32 → enters (.vtopkthr o))) ∧
    (∀ h e, VHolds s c n st i x o.g h e →
      let ends : Instr → Flags → Word → Prop := fun ins fl v => exec ins s = .next (s.vecEndedWith c n st fl o.d v)
      (t = .i32 → ends (.vredsum o) Flags.none
        ((BitVec.ofInt 32 ((xs.map (fun v => sextInt v 32)).sum)).signExtend 64)) ∧
      (∀ q, (t = .f32 ∧ q = .f32) ∨ (t = .bf16 ∧ q = .bf16) →
        let r := treeSum q ((span 0 x.vl).map (fun j => if x.isActive o.m j then some (x.elem t o.a j) else none))
        ends (.vredsum o) r.2 (BitVec.ofNat 64 r.1)) ∧
      (t = .i32 ∨ t = .i8 →
        let w := if t = .i32 then 32 else 8
        (∀ v ∈ xs, (∀ y ∈ xs, sextInt y w ≤ sextInt v w) → ends (.vredmax o) Flags.none (BitVec.ofInt 64 (sextInt v w))) ∧
        (∀ v ∈ xs, (∀ y ∈ xs, sextInt v w ≤ sextInt y w) → ends (.vredmin o) Flags.none (BitVec.ofInt 64 (sextInt v w))) ∧
        (∀ j < 256, x.isActive o.m j = true → (∀ y ∈ xs, sextInt y w ≤ sextInt (x.elem t o.a j) w) →
          (∀ k < j, x.isActive o.m k = true → sextInt (x.elem t o.a k) w < sextInt (x.elem t o.a j) w) →
          ends (.vredarg o) Flags.none (BitVec.ofNat 64 j)) ∧
        (xs = [] → ends (.vredmax o) Flags.none (BitVec.ofInt 64 (-2 ^ (w - 1))) ∧
          ends (.vredmin o) Flags.none (BitVec.ofInt 64 (2 ^ (w - 1) - 1)) ∧
          ends (.vredarg o) Flags.none (BitVec.allOnes 64))) ∧
      (∀ q, (t = .f32 ∧ q = .f32) ∨ (t = .bf16 ∧ q = .bf16) →
        let nums := xs.filter (fun v => !(decFp q v).isNaN)
        let fl : Flags := { Flags.none with iv := xs.any (fun v => (decFp q v).isSNaN) }
        (nums = [] → ends (.vredmax o) fl (BitVec.ofNat 64 q.nan) ∧ ends (.vredmin o) fl (BitVec.ofNat 64 q.nan) ∧
          ends (.vredarg o) fl (BitVec.allOnes 64)) ∧
        (∀ a l, nums = a :: l →
          ends (.vredmax o) fl (BitVec.ofNat 64 (l.foldl (fun m v => (fpMinMax q true m v).1) a)) ∧
          ends (.vredmin o) fl (BitVec.ofNat 64 (l.foldl (fun m v => (fpMinMax q false m v).1) a)) ∧
          (∀ j < 256, x.isActive o.m j = true → x.elem t o.a j = l.foldl (fun m v => (fpMinMax q true m v).1) a →
            (∀ k < j, x.isActive o.m k = true → x.elem t o.a k ≠ x.elem t o.a j) →
            ends (.vredarg o) fl (BitVec.ofNat 64 j)))) ∧
      (t = .f32 → ends (.vtopkthr o) Flags.none
        (if x.vl = 0 then 0xFF800000 else BitVec.ofNat 64 (x.elem .f32 o.a (x.vl - 1)))))

/-- 08 R254, R263, R266, R267: one event of a vector instruction at its own core: a read gives the bytes, a write changes them and no
other byte, and a reduction joins a merge group; the full-empty qualifiers act on the granules of the part. -/
def Obligations.VectorEventsAtTheirCore : Prop :=
  ∀ (s s' : State) (c : CoreId) (n pa len w : Nat) (st : Strand) (leaf base : Word) (mem : Nat × Nat) (form : Form) (off : Int),
    pa % w = 0 →
    (∀ (aq : Bool) (lq : FeLoad) (fresh : Bool), VLocal s c st mem form base off 1 pa leaf s' →
      (lq ≠ .none → FeAllowed form pa leaf ∧ ∀ g ∈ partGranules pa len fresh, s'.full (16 * g) = true) →
      (lq = .fec → s'.quietWrites c st) →
      ∃ t, s.vecRead c n st { vecPlan mem form 1 w (lq != .none) false with aq := aq } base off len lq fresh =
          .ok (memRead s'.mem pa len) st t ∧ t.mem = s'.mem ∧
        (lq ≠ .fec → t = s') ∧
        (lq = .fec → ∀ a, t.full a = (s'.full a && decide (a / 16 ∉ partGranules pa len fresh)))) ∧
    (∀ (sq : FeStore) (fresh : Bool) (data : List Byte), VLocal s c st mem form base off 2 pa leaf s' → s'.quietWrites c st →
      (sq ≠ .none → FeAllowed form pa leaf) → (sq = .ef → ∀ g ∈ partGranules pa len fresh, s'.full (16 * g) = false) →
      ∃ t, s.vecWrite c n st (vecPlan mem form 2 w (sq != .none) false) base off [(0, data)] len sq fresh = .ok [] st t ∧
        memRead t.mem pa data.length = data ∧ (∀ a, a < pa ∨ pa + data.length ≤ a → memGet t.mem a = memGet s'.mem a) ∧
        (∀ a, t.full a = (s'.full a || decide (sq ≠ .none ∧ a / 16 ∈ partGranules pa len fresh)))) ∧
    (∀ (op : RedOp) (data : Nat), VLocal s c st mem form base off 5 pa leaf s' →
      off = 0 → ∃ t g, s.vecRed c st (vecPlan mem form 5 w false true) base op data = .ok [] st t ∧ t.mem = s'.mem ∧
        (t.core c).merges = [g] ∧ g.line = pa / 64 ∧ g.op = op ∧ g.size = 4 ∧
        (op.isFp = false ∨ (decFp .f32 data).isNaN = false → g.vals = [(pa % 64, data)]))

/-- 08 R249, R263, R264: VLD, VST, VLDS and VSTS enter the queue with their strand waiting. Each turn makes one event over the active
elements of one chunk that share a granule, and after the last element the strand goes on. -/
def Obligations.VectorMovesBetweenElementsAndMemory : Prop :=
  ∀ (s : State) (c : CoreId) (n : Nat) (st : Strand) (i : Nat) (x : VecCtx),
    let start : List Word → VProg := fun vals => ⟨16, (st.pix.getD 0) % 512, false, vals, [], Flags.none⟩
    let waits' : State → Strand → VProg → Nat → State := fun s st h pos =>
      s.putStrand c n { st with hold := some { h with pos := pos }, run := .blocked .mem }
    let goesOn := fun (ins : Instr) (t : Elem) (m : Option (Fin 4)) (d : Reg) (h : VProg) (addr : Nat → Int) (single store : Bool)
        (ev : Nat → List Nat → VGot) =>
      (x.group m h.pos addr single = [] → exec ins s = .next (s.vecEnded c n st Flags.none)) ∧
      (∀ j js b st' s', x.group m h.pos addr single = j :: js → ev j js = .ok b st' s' →
        ∃ x' pos, exec ins s = .next (if store then waits' s' st' h pos else waits' (s'.setVctx c i x') st' h pos) ∧
          (∀ k ∈ j :: js, k < pos) ∧ (∀ k, x.isActive m k = true → k < pos → h.pos ≤ k → k ∈ j :: js) ∧
          x.wrote d (fun k => (j :: js).contains k)
            (fun k => ofLe ((b.drop ((k - j) * elemBytes t)).take (elemBytes t))) x')
    let len := fun (t : Elem) (j : Nat) (js : List Nat) => ((j :: js).getLastD j - j + 1) * elemBytes t
    let runs := fun (t : Elem) (d : Reg) (j : Nat) (js : List Nat) =>
      (j :: js).map (fun e => ((e - j) * elemBytes t, leBytes (elemBytes t) (x.elem t d e)))
    (∀ o : OpVLoad, let t := o.t.getD x.ty
      t ∈ typesMem →
      (VReady s c n st i x o.g [o.a] → s.vecRoom c n st →
        exec (.vld o) s = .next (s.vecEntered c n st i x none (start [st.reg o.a]))) ∧
      (∀ h e b, VHolds s c n st i x o.g h e → h.vals = [b] → st.lds.any (fun l => l.aq) = false →
        (BitVec.ofInt 64 (b.toNat + o.imm * 64)).toNat % elemBytes t = 0 →
        goesOn (.vld o) t o.m o.d h (fun k => b.toNat + o.imm * 64 + elemBytes t * k) false false (fun j js =>
          s.vecRead c n st { vecPlan (9, 0) o.form 1 (elemBytes t) (o.fe != .none) false with aq := o.aq } b
            (o.imm * 64 + elemBytes t * j) (len t j js) o.fe true))) ∧
    (∀ o : OpVStore, let t := o.t.getD x.ty
      t ∈ typesMem →
      (VReady s c n st i x o.g [o.a] → s.vecRoom c n st →
        exec (.vst o) s = .next (s.vecEntered c n st i x none (start [st.reg o.a]))) ∧
      (∀ h e b, VHolds s c n st i x o.g h e → h.vals = [b] → st.lds.any (fun l => l.aq) = false →
        (o.rl = true → s.settled c st true) → (BitVec.ofInt 64 (b.toNat + o.imm * 64)).toNat % elemBytes t = 0 →
        goesOn (.vst o) t o.m o.d h (fun k => b.toNat + o.imm * 64 + elemBytes t * k) false true (fun j js =>
          s.vecWrite c n st (vecPlan (10, 0) o.form 2 (elemBytes t) (o.fe != .none) false) b
            (o.imm * 64 + elemBytes t * j) (runs t o.d j js) (len t j js) o.fe true))) ∧
    (∀ o : OpVLoadB, let t := o.t.getD x.ty
      t ∈ typesMem →
      (VReady s c n st i x o.g [o.a, o.b] → s.vecRoom c n st →
        exec (.vlds o) s = .next (s.vecEntered c n st i x none (start [st.reg o.a, st.reg o.b]))) ∧
      (∀ h e b k, VHolds s c n st i x o.g h e → h.vals = [b, k] → st.lds.any (fun l => l.aq) = false →
        goesOn (.vlds o) t o.m o.d h (fun e => b.toNat + k.toInt * e) true false (fun j js =>
          s.vecRead c n st { vecPlan (11, 0) o.form 1 (elemBytes t) (o.fe != .none) false with aq := o.aq } b
            (k.toInt * j) (len t j js) o.fe true))) ∧
    (∀ o : OpVStoreB, let t := o.t.getD x.ty
      t ∈ typesMem →
      (VReady s c n st i x o.g [o.a, o.b] → s.vecRoom c n st →
        exec (.vsts o) s = .next (s.vecEntered c n st i x none (start [st.reg o.a, st.reg o.b]))) ∧
      (∀ h e b k, VHolds s c n st i x o.g h e → h.vals = [b, k] → st.lds.any (fun l => l.aq) = false →
        (o.rl = true → s.settled c st true) →
        goesOn (.vsts o) t o.m o.d h (fun e => b.toNat + k.toInt * e) true true (fun j js =>
          s.vecWrite c n st (vecPlan (11, 1) o.form 2 (elemBytes t) (o.fe != .none) false) b (k.toInt * j)
            (runs t o.d j js) (len t j js) o.fe true)))

/-- 08 R265 to R267: VGATH and the VSCAT members serve one lane in each turn, at g[a] + Sext(v[b][j], 32) × width; VGATH defers a lane
that misses in the core TLB and ends with p3 := (VDM = 0). VSTB writes its frames and then its scale bytes, VLDB reads its scale bytes and
then its frames, one event in each turn; the flags reach FCW when the instruction completes. -/
def Obligations.VectorLanesAndFrames : Prop :=
  ∀ (s : State) (c : CoreId) (n : Nat) (st : Strand) (i : Nat) (x : VecCtx) (h : VProg) (e : VQEntry) (b b' : Word),
    let waits' : State → Strand → VProg → State := fun s st h => s.putStrand c n { st with hold := some h, run := .blocked .mem }
    let free := st.lds.any (fun l => l.aq) = false
    (∀ o : OpVLane, VHolds s c n st i x o.g h e → h.vals = [b] → free →
      let t := o.t.getD x.ty
      let w := elemBytes t
      let lane := fun (j : Nat) => BitVec.ofInt 64 (b.toNat + sextInt (x.cell o.b j) 32 * w)
      let lanes := (x.act o.m).filter (fun j => decide (h.pos ≤ j))
      let served := lanes.filter (fun j => !h.rerun || x.inVdm j)
      (t ∈ typesMem →
        (served = [] → exec (.vgath o) s = .next (s.vecEnded c n (st.setP 3 (decide (x.vdm = 0))) Flags.none)) ∧
        (∀ j js, served = j :: js →
          (h.rerun = false → Form.isVa o.form = true → s.coreTlbMiss c st (lane j) = true →
            exec (.vgath o) s = .next (waits' (let s := s.setVctx c i { x with vdm := x.vdm ||| BitVec.ofNat 256 (2 ^ j) }
              if canonical (lane j) then s.startWalk (placeCtx c st) none (s.core c).vmid (lane j) else s)
              st { h with pos := j + 1 })) ∧
          (h.rerun = true ∨ Form.isVa o.form = false ∨ s.coreTlbMiss c st (lane j) = false →
            ∀ y st' s', s.vecRead c n st (vecPlan (12, 0) o.form 1 w false false) (lane j) 0 w .none true = .ok y st' s' →
            ∃ x1 x', exec (.vgath o) s = .next (waits' (s'.setVctx c i x') st' { h with pos := j + 1 }) ∧
              x.wrote o.d (fun k => decide (k = j)) (fun _ => ofLe y) x1 ∧
              x' = { x1 with vdm := x1.vdm &&& ~~~BitVec.ofNat 256 (2 ^ j) }))) ∧
      (t ∈ typesMem →
        (lanes = [] → exec (.vscat o) s = .next (s.vecEnded c n st Flags.none)) ∧
        (∀ j js y st' s', lanes = j :: js →
          s.vecWrite c n st (vecPlan (12, 1) o.form 2 w false false) (lane j) 0 [(0, leBytes w (x.elem t o.d j))] w .none true =
            .ok y st' s' → exec (.vscat o) s = .next (waits' s' st' { h with pos := j + 1 }))) ∧
      (t = .i32 ∨ t = .f32 →
        (lanes = [] → exec (.vscatadd o) s = .next (s.vecEnded c n st Flags.none) ∧
          exec (.vscatmax o) s = .next (s.vecEnded c n st Flags.none)) ∧
        (∀ j js y st' s', lanes = j :: js →
          (s.vecRed c st (vecPlan (12, 2) o.form 5 4 false true) (lane j) (if t = .f32 then .fadd else .add) (x.elem t o.d j) =
            .ok y st' s' → exec (.vscatadd o) s = .next (waits' s' st' { h with pos := j + 1 })) ∧
          (s.vecRed c st (vecPlan (12, 3) o.form 5 4 false true) (lane j) (if t = .f32 then .fmax else .max) (x.elem t o.d j) =
            .ok y st' s' → exec (.vscatmax o) s = .next (waits' s' st' { h with pos := j + 1 }))))) ∧
    (∀ o : OpVStoreB, VHolds s c n st i x o.g h e → h.vals = [b, b'] → o.t.getD x.ty ∈ typesTaper →
      let t := o.t.getD x.ty
      let fb := if t = .t8 then 32 else 24
      let frames := (x.vl + 31) / 32
      let f := h.pos / 32
      let part := framePart (b.toNat + f * fb) fb h.pos
      let sc := x.scales o.m o.d
      let codes := fun k => (x.frameCodes o.m t o.d sc st.fcw.sat k)
      let fl := (span 0 frames).foldl (fun a k => a.or (codes k).2) Flags.none
      (h.unit ≠ 0 → b.toNat % 8 = 0 → free → (o.rl = true → s.settled c st true) →
        (frames ≤ f → exec (.vstb o) s = .next (s.vecEnded c n st fl)) ∧
        (∀ y st' s', f < frames →
          s.vecWrite c n st (vecPlan (11, 3) o.form 2 8 (o.fe != .none) false) b (f * fb + part.1)
            [(0, ((leBytes fb (packFrame t (codes f).1)).drop part.1).take part.2.1)] part.2.1 o.fe (decide (f * fb + part.1 = 0)) =
            .ok y st' s' →
          (part.2.2 = false → exec (.vstb o) s = .next (waits' s' st' { h with pos := 32 * f + 16 })) ∧
          (part.2.2 = true → f + 1 < frames → exec (.vstb o) s = .next (waits' s' st' { h with pos := 32 * (f + 1) })) ∧
          (part.2.2 = true → f + 1 = frames → exec (.vstb o) s = .next (waits' s' st' { h with unit := 0, pos := 0 })))) ∧
      (h.unit = 0 →
        (∀ z y st' s', sc[h.pos]? = some z →
          s.vecWrite c n st (vecPlan (11, 3) o.form 2 1 false false) b' h.pos [(0, leBytes 1 z)] 1 .none true = .ok y st' s' →
          exec (.vstb o) s = .next (waits' s' st' { h with pos := h.pos + 1 })) ∧
        (sc[h.pos]? = none → ∃ t, exec (.vstb o) s = .next t ∧ t.mem = s.mem ∧ (t.core c).vq (n / 16) = [] ∧
          t.strandAt c n = some (Strand.finish { st.raise fl with hold := none, pix := none })))) ∧
    (∀ o : OpVLoadB, VHolds s c n st i x o.g h e → h.vals = [b, b'] → free → b.toNat % 8 = 0 → o.t.getD x.ty ∈ typesTaper →
      let t := o.t.getD x.ty
      let w := if t = .t8 then 8 else 6
      let frames := (x.vl + 31) / 32
      let blocks := (x.vl + x.blen - 1) / x.blen
      let f := h.pos / 32
      let part := framePart (b.toNat + f * (4 * w)) (4 * w) h.pos
      (∀ y st' s', h.buf.length < blocks →
        s.vecRead c n st (vecPlan (11, 2) o.form 1 1 false false) b' h.buf.length 1 .none true = .ok y st' s' →
        exec (.vldb o) s = .next (waits' s' st' { h with buf := h.buf ++ y })) ∧
      (blocks ≤ h.buf.length → frames ≤ f → exec (.vldb o) s = .next (s.vecEnded c n st h.fl)) ∧
      (∀ y st' s', blocks ≤ h.buf.length → f < frames →
        s.vecRead c n st { vecPlan (11, 2) o.form 1 8 (o.fe != .none) false with aq := o.aq } b (f * (4 * w) + part.1) part.2.1 o.fe
          (decide (f * (4 * w) + part.1 = 0)) = .ok y st' s' →
        (part.2.2 = false → exec (.vldb o) s = .next (waits' s' st' { h with buf := h.buf ++ y, pos := 32 * f + 16 })) ∧
        (part.2.2 = true →
          let frame := ofLe (h.buf.drop blocks ++ y)
          let code := fun j => frame / 2 ^ (w * (j - 32 * f)) % 2 ^ w
          let scale := fun j => (h.buf.getD (j / x.blen) 0).toNat
          let val := fun j => if scale j = 255 then (Fmt.f32.nan, Flags.none) else
            cvtToFp .f32 st'.fcw.rm st'.fcw.sat ((decTaper w (code j)).scale ((scale j : Int) - 127))
          let fl := ((span (32 * f) 32).filter (x.isActive o.m)).foldl (fun a j => a.or (val j).2) Flags.none
          ∃ x', exec (.vldb o) s = .next (waits' (s'.setVctx c i x') st'
              { h with buf := h.buf.take blocks, fl := h.fl.or fl, pos := 32 * (f + 1) }) ∧
            x.wrote o.d (fun j => x.isActive o.m j && decide (j / 32 = f)) (fun j => (val j).1) x')))

/-- 08 R247, R248, R271: VBIND takes the free context of lowest number at its reset values, VFREE releases it once every vector
instruction of the strand is complete, VWAIT waits for them, and VSETL, VGETL and VPIXRD set and read the length and the format. -/
def Obligations.VectorContextControl : Prop :=
  ∀ (s : State) (c : CoreId) (n : Nat) (st : Strand),
    (∀ o : Op0, s.curStrand = some (c, n, st) → guardHolds st o.g = true → (s.core c).has 1 = true →
      (∀ i, st.vctx = some i → exec (.vbind o) s = .next (s.done c n st)) ∧
      (∀ i, st.vctx = none → i < 8 → List.lookup i (s.core c).vctx = none →
        (∀ k < i, List.lookup k (s.core c).vctx ≠ none) →
        exec (.vbind o) s = .next ((s.setVctx c i
          ⟨st.uid, [], Vector.replicate 4 (BitVec.allOnes 256), 256, .f32, 32, 0, 0⟩).done c n
          { st with vctx := some i, stat := { st.stat with vbound := true } })) ∧
      (st.vctx = none → (∀ k < 8, List.lookup k (s.core c).vctx ≠ none) →
        exec (.vbind o) s = .next (s.putStrand c n { st with run := .blocked .msg })) ∧
      ((s.core c).vectorOpen st.uid = true →
        exec (.vfree o) s = .next (s.putStrand c n { st with run := .blocked .mem }) ∧
        exec (.vwait o) s = .next (s.putStrand c n { st with run := .blocked .mem })) ∧
      ((s.core c).vectorOpen st.uid = false →
        exec (.vwait o) s = .next (s.done c n st) ∧
        ∃ t, exec (.vfree o) s = .next t ∧ t.strandAt c n =
            some (Strand.finish { st with vctx := none, stat := { st.stat with vbound := false } }) ∧
          (∀ i, st.vctx = some i → List.lookup i (t.core c).vctx = none) ∧ t.mem = s.mem)) ∧
    (∀ (o : OpX) (i : Nat) (x : VecCtx), VReady s c n st i x o.g [o.x] →
      let v := (st.reg o.x).toNat
      (∃ x' : VecCtx, exec (.vsetl o) s = .next ((s.setVctx c i x').done c n st) ∧
        x'.vl = min (v % 2 ^ 32) 256 ∧
        (v / 2 ^ 32 % 8 = 0 ∨ v / 2 ^ 32 % 8 = 7 → x'.ty = x.ty) ∧
        (∀ t, elemOfCode (v / 2 ^ 32 % 8) = some t → x'.ty = t) ∧
        x'.blen = (if v / 2 ^ 36 % 4 = 1 then 16 else if v / 2 ^ 36 % 4 = 2 then 32 else x.blen) ∧
        x' = { x with vl := x'.vl, ty := x'.ty, blen := x'.blen }) ∧
      exec (.vgetl o) s = .next (s.wrote c n st o.x (BitVec.ofNat 64
        ((if x.blen = 16 then 1 else 2) * 2 ^ 36 + elemCode x.ty * 2 ^ 32 + x.vl))) ∧
      exec (.vpixrd o) s = .next (s.wrote c n st o.x (BitVec.ofNat 64 (x.vdmpc.toNat / 2 % 2 ^ 55 * 512 +
        ((List.range 256).filter (fun j => x.vdm.getLsbD j)).length % 512))))

/-- 09 R277, R278, R281, R282, R284, R285, R291: the ring instructions of a ring of the strand's own core and context. -/
def Obligations.RingOperationsOfACore : Prop :=
  ∀ (s : State) (c : CoreId) (n : Nat) (st : Strand) (r : Ring),
    let num := fun (a : Reg) => (st.reg a).toNat % 16
    let yes := st.setP 3 true
    let no : Out := .next (s.done c n (st.setP 3 false))
    (∀ o : OpDAB, Ready s c n st o.g [o.a, o.b, o.d] → s.ownRing c st (num o.a) r →
      let k := (st.reg o.b).toNat
      (1 ≤ k ∧ k ≤ r.f → exec (.rclaim o) s = .next ((s.setRing c (num o.a) { r with claim := (r.claim + k) % 65536 }).wrote c n yes
        o.d (BitVec.ofNat 64 (r.at r.claim)))) ∧
      (¬ (1 ≤ k ∧ k ≤ r.f) → exec (.rclaim o) s = no) ∧
      (k < r.p → exec (.rpeek o) s = .next (s.wrote c n yes o.d (BitVec.ofNat 64 (r.at (r.head + k))))) ∧
      (r.p ≤ k → exec (.rpeek o) s = no) ∧
      s.waited c n st (decide (k ≤ r.p)) (st.reg o.d) (exec (.rwaitf o) s) ∧
      s.waited c n st (decide (k ≤ r.f)) (st.reg o.d) (exec (.rwaite o) s)) ∧
    (∀ o : OpAB, Ready s c n st o.g [o.a, o.b] → s.ownRing c st (num o.a) r → s.noReds st →
      let k := (st.reg o.b).toNat
      let after := fun (t : State) (full : Bool) (first : Nat) => t.strandAt c n = some yes.finish ∧ t.mem = s.mem ∧
        (r.mode ≠ 2 → t.feEmpty = s.feEmpty) ∧
        (r.mode = 2 → ∀ a, (r.spans c first k (a / 16) → t.full a = full) ∧ (¬ r.spans c first k (a / 16) → t.full a = s.full a))
      (s.quiet c st false = false → exec (.rpub o) s = .next (s.putStrand c n { st with run := .blocked .mem }) ∧
        exec (.rpop o) s = .next (s.putStrand c n { st with run := .blocked .mem })) ∧
      (s.quiet c st false = true →
        (¬ (1 ≤ k ∧ k ≤ r.unready.length) → exec (.rpub o) s = no) ∧ (¬ (1 ≤ k ∧ k ≤ r.p) → exec (.rpop o) s = no) ∧
        (1 ≤ k → k ≤ r.unready.length → k ≤ 2 ^ r.logent → r.ready = [] → (r.mode = 2 → CalmCore s c st) →
          ∃ t, exec (.rpub o) s = .next t ∧ after t true r.pub ∧
            t.ring c (num o.a) = some { r with pub := (r.pub + k) % 65536 }) ∧
        (1 ≤ k → k ≤ r.p → (r.mode = 2 → CalmCore s c st) → ∃ t r', exec (.rpop o) s = .next t ∧ after t false r.head ∧
            t.ring c (num o.a) = some r' ∧ r'.head = (r.head + k) % 65536 ∧ r'.pub = r.pub ∧ r'.claim = r.claim ∧
            (r.waiters = [] → r' = { r with head := (r.head + k) % 65536 })))) ∧
    (∀ o : OpDA, Ready s c n st o.g [o.a, o.d] →
      (s.ownRing c st (num o.a) r → exec (.rstat o) s = .next (s.wrote c n st o.d (BitVec.ofNat 64
        (r.head * 2 ^ 48 + r.pub * 2 ^ 32 + r.claim * 2 ^ 16 + r.mode * 2 ^ 14 + 2 ^ 13 +
          b01 (r.taskref != 0 || r.qin || r.qout) * 2 ^ 12 + 2 ^ r.logent)))) ∧
      (s.ring c (num o.a) = none → exec (.rstat o) s = .next (s.wrote c n st o.d 0)) ∧
      (s.ownRing c st (num o.a) r → r.mode = 1 → r.p ≠ 0 → r.claim = r.pub →
        let p := (r.pub + 65535) % 65536
        exec (.rpopt o) s = .next ((s.setRing c (num o.a) { r with pub := p, claim := p }).wrote c n yes o.d
          (BitVec.ofNat 64 (r.at p)))) ∧
      (s.ownRing c st (num o.a) r → r.mode ≠ 1 ∨ r.p = 0 ∨ r.claim ≠ r.pub → exec (.rpopt o) s = no) ∧
      (s.ring c (num o.a) = none → exec (.rpopt o) s = .next (s.takeFault c n st (fAccess (BitVec.ofNat 64 (num o.a)) 0)))) ∧
    (∀ o : OpAB, Ready s c n st o.g [o.a, o.b] → s.ring c (num o.a) = none ∨ (∃ q, s.ring c (num o.a) = some q ∧ q.asid ≠ st.asid) →
      exec (.rpub o) s = .next (s.takeFault c n st (fAccess (BitVec.ofNat 64 (num o.a)) 0)) ∧
      exec (.rpop o) s = .next (s.takeFault c n st (fAccess (BitVec.ofNat 64 (num o.a)) 0)))

/-- 00 R13, 09 R276, R283: an instruction reads its descriptor by one event for each 16-byte granule, one in a turn, and goes on once it
has all its bytes. RCFG reads a descriptor of 16 bytes, refuses what the rule refuses, and else gives the ring its new values with
its counters 0, or removes it; the entry area of a ring in FED mode becomes empty. -/
def Obligations.RingConfiguration : Prop :=
  (∀ (s s' : State) (c : CoreId) (n pa len : Nat) (st : Strand) (va info leaf : Word),
    (len ≤ st.rbuf.length → s.readVa c n st va len info = .ok (st.rbuf.take len) s) ∧
    (st.rbuf.length < len → st.bulk = none →
      GranuleAt s (scalarCtx c n st) st va st.rbuf.length 1 info pa leaf s' →
      let k := min (len - st.rbuf.length) (16 - (va + BitVec.ofNat 64 st.rbuf.length).toNat % 16)
      s.readVa c n st va len info =
        .wait (s'.putStrand c n { st with rbuf := st.rbuf ++ memRead s'.mem pa k, run := .blocked .mem }))) ∧
  ∀ (o : OpAB) (s : State) (c : CoreId) (n : Nat) (st : Strand) (b : List Byte), Ready s c n st o.g [o.a, o.b] →
    let i := (st.reg o.a).toNat % 16
    let d0 := (dwAt b 0).toNat
    let mode := d0 / 2 ^ 45 % 4
    let size := 16 * (d0 / 2 ^ 37 % 256 + 1)
    let logent := d0 / 2 ^ 33 % 16
    let base := d0 % 2 ^ 20
    let valid := d0 / 2 ^ 47 % 2 = 1
    let busy := ∃ r, s.ring c i = some r ∧ (r.asid ≠ st.asid ∨ r.taskref ≠ 0 ∨ r.qin = true ∨ r.qout = true ∨ r.granted ≠ 0)
    let unfit := valid ∧ (mode = 3 ∨ 10 < logent ∨ base % 64 ≠ 0 ∨ 2 ^ 20 < base + 2 ^ logent * size)
    ((st.reg o.b).toNat % 16 ≠ 0 → exec (.rcfg o) s = .next (s.takeFault c n st (fAlign (st.reg o.b) 16))) ∧
    (∀ s', (st.reg o.b).toNat % 16 = 0 → s.readVa c n st (st.reg o.b) 16 (BitVec.ofNat 64 (3 * 65536 + 256 + 3)) = .wait s' →
      exec (.rcfg o) s = .next s') ∧
    (st.hasRead (st.reg o.b) 16 16 b →
      (busy ∨ unfit → exec (.rcfg o) s = .next (s.done c n (st.setP 3 false))) ∧
      (¬ busy → ¬ unfit → (valid → mode = 2 → CalmCore s c st) → ∃ t, exec (.rcfg o) s = .next t ∧ t.strandAt c n = some (st.setP 3 true).finish ∧ t.mem = s.mem ∧
        (¬ valid → t.ring c i = none) ∧
        (valid →
          let batch := (dwAt b 8).toNat % 65536
          ∃ r, t.ring c i = some r ∧ r.asid = st.asid ∧ r.mode = mode ∧ 16 * (r.sizem1 + 1) = size ∧ r.logent = logent ∧
          r.base = base ∧ r.head = 0 ∧ r.pub = 0 ∧ r.claim = 0 ∧ r.granted = 0 ∧ r.taskref = 0 ∧ r.qin = false ∧ r.qout = false ∧
          r.cbatch = (if batch = 0 then max (2 ^ logent / 4) 1 else batch) ∧
          (mode ≠ 2 → t.feEmpty = s.feEmpty) ∧
          (mode = 2 → ∀ a, t.full a = (s.full a &&
            decide (¬ (coreBase c + 0x20000000 + base ≤ a ∧ a < coreBase c + 0x20000000 + base + 2 ^ logent * size)))))))

/-- 09 R287, R289 to R291: RAPP takes one credit and sends its entry, or asks for credits; RCRED reads a credit entry or returns its
credits; RSTEAL sends its request. Each waits for its reply. -/
def Obligations.RingsOfOtherCores : Prop :=
  ∀ (s : State) (c d : CoreId) (n : Nat) (st : Strand) (e : Credit),
    let parked : State → Cont → State := fun s k => s.putStrand c n { st with run := .await .msg (waitFor k), deadline := none }
    let tag := s.tagOf c st.lslot
    (∀ o : OpDAB, Ready s c n st o.g [o.a, o.b, o.d] →
      let t := (st.reg o.a).toNat
      let off := (st.reg o.b).toNat
      let i := t / 2 ^ 32 % 16
      let ln := t / 2 ^ 16 % 65536
      let ring := t % 16
      (off % 16 ≠ 0 → exec (.rapp o) s = .next (s.takeFault c n st (fAlign (st.reg o.b) 16))) ∧
      (off % 16 = 0 → s.credit c i = some e → e.valid = true →
        (e.ln ≠ ln ∨ e.ring ≠ ring ∨ e.asid ≠ st.asid → exec (.rapp o) s = .next (s.done c n (st.setP 3 false))) ∧
        (e.ln = ln → e.ring = ring → e.asid = st.asid → s.settled c st false → s.lnCore (s.partOf c) ln = some d →
          (∀ data, 0 < e.credits → 0x20000000 ≤ off → off + 16 * (e.sizem1 + 1) ≤ 0x20100000 →
            st.hasRead (st.reg o.b) 16 (16 * (e.sizem1 + 1)) data →
            exec (.rapp o) s = .next ((parked (s.setCredit c i { e with credits := e.credits - 1 }) (.rapp i)).send c d false tag
              (.append ⟨c, n, st.uid⟩ ring st.asid i data))) ∧
          (e.credits = 0 → e.req = false → s.isDue (s.limitAt st (st.reg o.d)) = false →
            exec (.rapp o) s = .next (((s.setCredit c i { e with req := true, tag := tag }).send c d false tag (.creditReq ring st.asid i)).putStrand
              c n { st with deadline := s.limitAt st (st.reg o.d), run := .blocked .msg }))))) ∧
    (∀ o : OpDA, Ready s c n st o.g [o.a, o.d] → st.deadline = none →
      let i := (st.reg o.a).toNat % 16
      (s.credit c i = none → exec (.rcred o) s = .next (s.wrote c n st o.d 0)) ∧
      (s.credit c i = some e → (st.reg o.a).getLsbD 8 = false →
        exec (.rcred o) s = .next (s.wrote c n st o.d (e.words.getD 0 0))) ∧
      (s.credit c i = some e → (st.reg o.a).getLsbD 8 = true → e.req = false → s.lnCore (s.partOf c) e.ln = some d →
        exec (.rcred o) s = .next ((parked (s.setCredit c i { e with credits := 0 }) (.rcred o.d i)).send c d false tag
          (.creditReturn (some ⟨c, n, st.uid⟩) e.ring e.asid i e.credits))) ∧
      let ln := (st.reg o.a).toNat / 2 ^ 16 % 65536
      ((st.reg o.d).toNat % 16 ≠ 0 → exec (.rsteal o) s = .next (s.takeFault c n st (fAlign (st.reg o.d) 16))) ∧
      ((st.reg o.d).toNat % 16 = 0 → s.lnCore (s.partOf c) ln = none →
        exec (.rsteal o) s = .next (s.done c n (st.setP 3 false))) ∧
      ((st.reg o.d).toNat % 16 = 0 → s.lnCore (s.partOf c) ln = some d →
        exec (.rsteal o) s = .next ((parked s (.rsteal o.d (st.reg o.d).toNat)).send c d false tag
          (.steal ⟨c, n, st.uid⟩ i st.asid))))

/-- 09 R293, R294: QBIND binds the rings its word enables, QFREE releases them, and in a bound strand g12 to g15 are ports: a source
pops the next doubleword of the IN ring, and a result is pushed to the OUT ring. -/
def Obligations.QueuesMappedToRegisters : Prop :=
  ∀ (s : State) (c : CoreId) (n : Nat) (st : Strand),
    (∀ o : OpA, Ready s c n st o.g [o.a] →
      let v := (st.reg o.a).toNat
      let q : QBind := ⟨v % 16, v / 16 % 16, (st.reg o.a).getLsbD 8, (st.reg o.a).getLsbD 9⟩
      let usable : Nat → (Ring → Bool) → Prop := fun i bound =>
        ∃ r, s.ring c i = some r ∧ r.asid = st.asid ∧ r.mode ≠ 1 ∧ r.taskref = 0 ∧ bound r = false
      let ok := (q.inEn = true → usable q.inRing Ring.qin) ∧ (q.outEn = true → usable q.outRing Ring.qout)
      (¬ ok → exec (.qbind o) s = .next (s.done c n (st.setP 3 false))) ∧
      (ok → ∃ t, exec (.qbind o) s = .next t ∧ t.mem = s.mem ∧
        t.strandAt c n = some (Strand.finish (Strand.setP { st with qb := some q, stat := { st.stat with qbound := true } } 3 true)) ∧
        (q.inEn = true → ∃ r, t.ring c q.inRing = some r ∧ r.qin = true ∧ r.cword = 0) ∧
        (q.outEn = true → ∃ r, t.ring c q.outRing = some r ∧ r.qout = true ∧ r.pword = 0))) ∧
    (∀ (o : Op0) (q : QBind) (a b : Ring), s.curStrand = some (c, n, st) → guardHolds st o.g = true → st.stat.qbound = true →
      st.qb = some q → s.settled c st false → q.inEn = true → q.outEn = true → q.inRing ≠ q.outRing →
      s.ring c q.inRing = some a → s.ring c q.outRing = some b → a.cword = 0 → b.pword = 0 →
      ∃ t, exec (.qfree o) s = .next t ∧
        t.strandAt c n = some (Strand.finish { st with qb := none, stat := { st.stat with qbound := false } }) ∧
        t.ring c q.inRing = some { a with qin := false } ∧ t.ring c q.outRing = some { b with qout := false } ∧ t.mem = s.mem) ∧
    (∀ (o : OpDAB) (q : QBind) (r : Ring), s.curStrand = some (c, n, st) → guardHolds st o.g = true → st.stat.qbound = true →
      st.qb = some q → (∀ x ∈ [o.a, o.b, o.d], st.pending x = .clear) → CalmCore s c st →
      let size := 2 * (r.sizem1 + 1)
      (12 ≤ o.a.val → o.b.val < 12 → o.d.val < 12 → q.inEn = true → s.ring c q.inRing = some r →
        r.cword + 1 < size → r.cword + 1 ≤ r.p * size →
        exec (.add o) s = .next ((s.setRing c q.inRing { r with cword := r.cword + 1 }).done c n (st.setG o.d
          (BitVec.ofNat 64 (ofLe (memRead s.mem (coreBase c + r.at r.head + 8 * r.cword) 8)) + st.reg o.b)))) ∧
      (o.a.val < 12 → o.b.val < 12 → 12 ≤ o.d.val → q.outEn = true → s.ring c q.outRing = some r →
        r.pword + 1 < size → 0 < r.pword ∨ 1 ≤ r.f →
        let at' := coreBase c + r.at r.pub + 8 * r.pword
        ∃ t, exec (.add o) s = .next t ∧ t.strandAt c n = some st.finish ∧
          memRead t.mem at' 8 = leBytes 8 (st.reg o.a + st.reg o.b).toNat ∧
          (∀ x, x < at' ∨ at' + 8 ≤ x → memGet t.mem x = memGet s.mem x) ∧
          (let claim := if r.pword = 0 then (r.claim + 1) % 65536 else r.claim
           t.ring c q.outRing = some { r with pword := r.pword + 1, claim := claim })) ∧
      (12 ≤ o.a.val → o.b.val < 12 → o.d.val < 12 → q.inEn = true → s.ring c q.inRing = some r → r.p * size < r.cword + 1 →
        r.cword + 1 < size → exec (.add o) s = .next (s.putStrand c n { st with run := .blocked .msg })))

/-- 09 R295, R296, R298 to R300, R304: COPY reads its descriptor, refuses what the rule refuses, and else takes a record in WAITDEP and
gives its handle with p3 := 1; BCSET and BCWAIT set and await a byte-count barrier of the context. -/
def Obligations.CopiesAndByteCounts : Prop :=
  ∀ (s : State) (c : CoreId) (n : Nat) (st : Strand) (b : List Byte),
    (∀ o : OpDA, Ready s c n st o.g [o.a, o.d] → s.settled c st false →
      let w := (dwAt b 16).toNat
      let sform := w / 2 ^ 61 % 8
      let dform := w / 2 ^ 58 % 8
      let len := w % 2 ^ 21
      ((st.reg o.a).toNat % 32 ≠ 0 → exec (.copy o) s = .next (s.takeFault c n st (fAlign (st.reg o.a) 32))) ∧
      (st.hasRead (st.reg o.a) 32 32 b →
        (sform = 7 ∨ dform = 7 →
          exec (.copy o) s = .next (s.wrote c n (st.setP 3 false) o.d (BitVec.ofNat 64 (0xC000000000000000 + 1)))) ∧
        (sform ≠ 7 → dform ≠ 7 → 2 ^ 20 < len →
          exec (.copy o) s = .next (s.wrote c n (st.setP 3 false) o.d (BitVec.ofNat 64 (0xC000000000000000 + 2)))) ∧
        (∀ i, sform ≠ 7 → dform ≠ 7 → len ≤ 2 ^ 20 → s.copyRange c st (formOf sform) (dwAt b 0) len 1 = none →
          s.copyRange c st (formOf dform) (dwAt b 8) len 2 = none →
          w / 2 ^ 56 % 2 = 0 ∨ (∃ k, st.bulk = some k ∧ len ≤ k.pos) → (s.core c).has 3 = true →
          (s.core c).freeRecord = some i →
          ∃ t r j seq, exec (.copy o) s = .next t ∧ t.mem = s.mem ∧ t.record c i = some r ∧ r.job = .copy j ∧ r.state = .waitdep ∧
            r.asid = st.asid ∧ r.sid = st.sid ∧ r.seq = seq ∧ r.deps = [dwAt b 24].filter (fun h => h != 0) ∧
            j.src = dwAt b 0 ∧ j.dst = dwAt b 8 ∧ j.sform = sform ∧ j.dform = dform ∧ j.len = len ∧ j.sent = 0 ∧ j.landed = 0 ∧
            j.fill = decide (w / 2 ^ 57 % 2 = 1) ∧ j.pub = decide (w / 2 ^ 55 % 2 = 1) ∧ j.bcben = decide (w / 2 ^ 54 % 2 = 1) ∧
            j.bcb = w / 2 ^ 50 % 16 ∧ j.ring = w / 2 ^ 46 % 16 ∧
            t.strandAt c n = some (Strand.finish (Strand.setPend ((st.setP 3 true).setG o.d
              (BitVec.ofNat 64 ((s.core c).cfg.ln * 2 ^ 46 + i * 2 ^ 40 + seq))) o.d .handle)) ∧
            (List.lookup i (t.core c).board).map (fun x => (x.seq, x.active)) = some (seq, true)))) ∧
    (∀ o : OpAB, Ready s c n st o.g [o.a, o.b] →
      let x := ⟨(st.reg o.b).toNat % 2 ^ 32, st.asid⟩
      exec (.bcset o) s = .next ((s.modCore c (fun k =>
        { k with bcbs := tblSet k.bcbs ((st.reg o.a).toNat % 16) x })).done c n st)) ∧
    (∀ o : OpDAB, Ready s c n st o.g [o.a, o.b, o.d] →
      ∀ x, List.lookup ((st.reg o.a).toNat % 16) (s.core c).bcbs = some x →
      s.waited c n st (decide ((st.reg o.b).toNat % 2 ^ 32 ≤ x.count ∧ x.asid = st.asid)) (st.reg o.d) (exec (.bcwait o) s))

/-- 09 R305 to R307, R312, R321, R322: the matrix engine's instructions at a core that has the engine: MTASK takes a record in WAITDEP
and gives its handle or refuses with the reason, MPROG loads a program slot, MTHR signals the tasks that use its threshold word, and
MQUERY reads the scheduler. -/
def Obligations.MatrixEngineInstructions : Prop :=
  ∀ (s : State) (c : CoreId) (n : Nat) (st : Strand) (b : List Byte),
    (∀ o : OpDA, Ready s c n st o.g [o.a, o.d] → s.settled c st false →
      let v := st.reg o.a
      let m := s.takeProg c st.asid (matrixOfWords st b)
      (v.toNat % 64 ≠ 0 → exec (.mtask o) s = .next (s.takeFault c n st (fAlign v 64))) ∧
      (st.hasRead v 64 128 b → (s.core c).has 2 = true →
        let marks := toMark c m
        let pos := match st.bulk with | none => 0 | some k => k.pos
        (∀ k, s.taskRefused c st.asid m = some k →
          exec (.mtask o) s = .next (s.wrote c n (st.setP 3 false) o.d (BitVec.ofNat 64 (0xC000000000000000 + k)))) ∧
        (s.taskRefused c st.asid m = none → (s.core c).freeRecord = none →
          exec (.mtask o) s = .next (s.putStrand c n { st with run := .blocked .msg })) ∧
        (∀ g, s.taskRefused c st.asid m = none → (s.core c).freeRecord ≠ none → marks[pos]? = some g → CalmCore s c st →
          ∃ t, exec (.mtask o) s = .next t ∧ t.mem = s.mem ∧ (∀ a, t.full a = (s.full a && decide (a / 16 ≠ g))) ∧
            t.strandAt c n = some { st with bulk := some ⟨[], marks.length, pos + 1, 0⟩, run := .blocked .mem }) ∧
        (∀ i, s.taskRefused c st.asid m = none → (s.core c).freeRecord = some i → marks[pos]? = none →
          ∃ t r, exec (.mtask o) s = .next t ∧ t.mem = s.mem ∧ t.record c i = some r ∧ r.job = .matrix m ∧ r.state = .waitdep ∧
            r.asid = st.asid ∧ r.sid = st.sid ∧ r.prio = (dwAt b 0).getLsbD 63 ∧
            r.deps = [dwAt b 8, dwAt b 16].filter (fun h => h != 0) ∧
            t.strandAt c n = some (Strand.finish (Strand.setPend ((st.setP 3 true).setG o.d
              (BitVec.ofNat 64 (2 ^ 62 + (s.core c).cfg.ln * 2 ^ 46 + i * 2 ^ 40 + r.seq))) o.d .handle))))) ∧
    (∀ o : OpAB, Ready s c n st o.g [o.a, o.b] →
      let slot := (st.reg o.a).toNat % 4
      st.hasRead (st.reg o.b) 16 16 b → (s.core c).has 2 = true →
      (slot = 0 ∨ parseProg (dwAt b 0).toNat (dwAt b 8).toNat = none →
        exec (.mprog o) s = .next (s.done c n (st.setP 3 false))) ∧
      (∀ ops mono, slot ≠ 0 → parseProg (dwAt b 0).toNat (dwAt b 8).toNat = some (ops, mono) →
        exec (.mprog o) s = .next ((s.modCore c (fun k => { k with micro := tblSet k.micro slot ⟨ops, mono, st.asid⟩ })).done c n
          (st.setP 3 true)))) ∧
    (∀ o : OpA, Ready s c n st o.g [o.a] → s.settled c st false → (s.core c).has 2 = true →
      ∃ t, exec (.mthr o) s = .next t ∧ t.strandAt c n = some st.finish ∧ t.mem = s.mem ∧
        ∀ i r m, s.record c i = some r → r.job = .matrix m →
          t.record c i = some (if m.isScore = true ∧ 2 ≤ m.cls ∧ m.thr = st.reg o.a ∧ r.asid = st.asid then
            { r with job := .matrix { m with refresh := true } } else r)) ∧
    (∀ o : OpDA, Ready s c n st o.g [o.a, o.d] → (s.core c).has 2 = true →
      let task := (s.core c).runningTask
      let gives := fun (v : Word) => exec (.mquery o) s = .next (s.wrote c n st o.d v)
      ((st.reg o.a).toNat % 4 = 1 → (task = none → gives 0) ∧ (∀ i r m, task = some (i, r, m) → gives (BitVec.ofNat 64
        (2 ^ 62 + (s.core c).cfg.ln * 2 ^ 46 + i * 2 ^ 40 + r.seq)))) ∧
      ((st.reg o.a).toNat % 4 = 2 → (task = none → gives 0xFF800000) ∧ (∀ i r m, task = some (i, r, m) →
        gives (BitVec.ofNat 64 (if m.isScore then m.theta else 0xFF800000)))) ∧
      ((st.reg o.a).toNat % 4 = 3 → (task = none → gives 0) ∧ (∀ i r m, task = some (i, r, m) →
        gives (if m.isScore then BitVec.ofNat 64 (m.abandoned * 2 ^ 32 + m.published) else 0))) ∧
      ((st.reg o.a).toNat % 4 = 0 →
        let recs := (s.core c).records
        gives (BitVec.ofNat 64 ((32 - recs.length) * 2 ^ 24 +
          (recs.filter (fun x => !x.2.isCopy && x.2.queued)).length * 2 ^ 16 +
          (recs.filter (fun x => x.2.isCopy && x.2.queued)).length * 2 ^ 8 +
          (recs.filter (fun x => x.2.isCopy && x.2.isPending)).length))))

/-- 07 R235, 12 R388 to R390: BARC sends its arrival to the crew core and waits; on a channel of the crew core, a done phase ends
BARG, BARGW and the collectives with their status or result, and a member that has not arrived arrives. -/
def Obligations.BarriersAndCollectives : Prop :=
  ∀ (s : State) (c : CoreId) (n : Nat) (st : Strand),
    (∀ o : OpD, Ready s c n st o.g [o.d] →
      (st.lslot = none ∨ st.spawned = true → exec (.barc o) s = .next (s.wrote c n st o.d (BitVec.ofNat 64 (2 ^ 63)))) ∧
      (∀ l d, st.lslot = some l → s.crewCore c st = some d → st.spawned = false → s.settled c st false →
        exec (.barc o) s = .next ((s.putStrand c n { st with run := .await .msg (waitFor (.barc o.d)) }).send c d false
          (s.tagOf c (some l)) (.crewArrive l st.member ⟨c, n, st.uid⟩)))) ∧
    (∀ (o : OpDA) (w : ChanView), Ready s c n st o.g [o.a, o.d] →
      let ch := (st.reg o.a).toNat % 32
      (s.chanView c st ch = none ∨ st.spawned = true →
        exec (.barg o) s = .next (s.wrote c n (st.setP 3 true) o.d (BitVec.ofNat 64 (2 ^ 63)))) ∧
      (s.chanView c st ch = some w → st.spawned = false → w.gone = false →
        ((s.core c).slotKind ch ≠ 1 → exec (.barg o) s = .next (s.wrote c n (st.setP 3 false) o.d (BitVec.ofNat 64 (2 ^ 61)))) ∧
        ((s.core c).slotKind ch = 1 →
          (w.done = true → exec (.barg o) s = .next ((s.takeDone st w).wrote c n (st.setP 3 true) o.d w.y.status)) ∧
          (w.done = false → w.arrived = true → exec (.barg o) s = .next (s.putStrand c n { st with run := .blocked .msg })) ∧
          (w.done = false → w.arrived = false → s.settled c st ((s.core c).isFabric ch) →
            exec (.barg o) s = .next ((s.arriveOn c st w ch 0 0x100).putStrand c n { st with run := .blocked .msg }))))) ∧
    (∀ (o : OpA) (w : ChanView), Ready s c n st o.g [o.a] →
      let ch := (st.reg o.a).toNat % 32
      (s.chanView c st ch = none ∨ st.spawned = true → exec (.barga o) s = .next (s.done c n (st.setP 3 true))) ∧
      (s.chanView c st ch = some w → st.spawned = false → w.gone = false →
        ((s.core c).slotKind ch ≠ 1 → exec (.barga o) s = .next (s.done c n (st.setP 3 false))) ∧
        ((s.core c).slotKind ch = 1 →
          (w.done = true ∨ w.arrived = true → exec (.barga o) s = .next (s.done c n (st.setP 3 false))) ∧
          (w.done = false → w.arrived = false → s.settled c st ((s.core c).isFabric ch) →
            exec (.barga o) s = .next ((s.arriveOn c st w ch 0 0x100).done c n (st.setP 3 true)))))) ∧
    (∀ (o : OpDAB) (w : ChanView), Ready s c n st o.g [o.a, o.b, o.d] →
      let ch := (st.reg o.a).toNat % 32
      s.chanView c st ch = some w → st.spawned = false → w.gone = false → (s.core c).slotKind ch = 1 →
      (w.done = true → exec (.bargw o) s = .next ((s.takeDone st w).wrote c n (st.setP 3 true) o.d w.y.status)) ∧
      (w.done = false → w.arrived = false →
        exec (.bargw o) s = .next (s.wrote c n (st.setP 3 false) o.d (BitVec.ofNat 64 (2 ^ 59)))) ∧
      (w.done = false → w.arrived = true → s.isDue (s.limitAt st (st.reg o.b)) = true →
        exec (.bargw o) s = .next (s.wrote c n (st.setP 3 false) o.d (BitVec.ofNat 64 (2 ^ 60)))) ∧
      (w.done = false → w.arrived = true → s.isDue (s.limitAt st (st.reg o.b)) = false →
        exec (.bargw o) s = .next (s.putStrand c n { st with deadline := s.limitAt st (st.reg o.b), run := .blocked .msg }))) ∧
    (∀ p ∈ collectives, ∀ (o : OpDAB) (w : ChanView), Ready s c n st o.g [o.a, o.b, o.d] →
      let ch := (st.reg o.b).toNat % 32
      let code := (st.reg o.b).toNat / 2 ^ 8 % 4
      let ty := if code = 3 then 0 else code
      (s.chanView c st ch = none ∨ st.spawned = true → exec (p.1 o) s = .next (s.wrote c n (st.setP 3 false) o.d 0)) ∧
      (s.chanView c st ch = some w → st.spawned = false → w.gone = false →
        ((s.core c).slotKind ch ≠ 2 → exec (p.1 o) s = .next (s.wrote c n (st.setP 3 false) o.d 0)) ∧
        ((s.core c).slotKind ch = 2 →
          (w.done = true → exec (p.1 o) s = .next (((s.takeDone st w).fpEvents c st.lslot w.y.flags 0).wrote c n
            ((st.raise w.y.flags).setP 3 (w.y.ok && !w.y.shrunk)) o.d w.y.result)) ∧
          (w.done = false → w.arrived = true → exec (p.1 o) s = .next (s.putStrand c n { st with run := .blocked .msg })) ∧
          (w.done = false → w.arrived = false → ty = 2 → isVN .f32 (st.lo32 o.a) = true →
            exec (p.1 o) s = .next (s.takeFault c n st (fVerdict 0 (st.lo32 o.a)))) ∧
          (w.done = false → w.arrived = false → ¬ (ty = 2 ∧ isVN .f32 (st.lo32 o.a) = true) →
            s.settled c st ((s.core c).isFabric ch) →
            exec (p.1 o) s = .next ((s.arriveOn c st w ch (st.reg o.a) (p.2 + 4 * ty)).putStrand c n
              { st with run := .blocked .msg })))))

/-- 02 R75; 06 R194; 08 R252; 10 R333; 11 R365; 12 R381, R383; 14 R414; 15 R440, R451; 16 R453: the privileged registers by number. -/
def Obligations.PrivilegedRegisterAccess : Prop :=
  ∀ (s : State) (c : CoreId) (n : Nat) (st : Strand),
    let k := s.core c
    (∀ o : OpDN, PReady s c n st o.g [o.d] →
      ∃ v : Word, exec (.mfsp o) s = .next (s.wrote c n st o.d v) ∧
        (o.n = 0x40 → v = (s.handlerPair c st).1) ∧ (o.n = 0x41 → v = (s.handlerPair c st).2) ∧ (o.n = 0x48 → v = k.vshare) ∧
        (o.n = 0x49 → v = BitVec.ofNat 64 ((k.vctx.map (fun e => 2 ^ e.1)).sum)) ∧
        (o.n = 0x58 → v = k.cfg.mirtab) ∧ (o.n = 0x60 → v = k.cfg.lmap) ∧ (o.n = 0x61 → v = k.cfg.wheelcfg) ∧
        (o.n = 0x62 → v = k.cfg.wslots) ∧ (o.n = 0x68 → v = k.cfg.partcfg) ∧
        (∀ i : Fin 8, o.n = 0x70 + i.val → v = k.cfg.iset[i]) ∧ (o.n = 0x7E → v = k.cfg.dumpctl) ∧ (o.n = 0x7F → v = k.cfg.dumpva) ∧
        (o.n = 0x80 → v = k.cfg.fabcfg) ∧ (o.n = 0x81 → v = k.cfg.fabexp) ∧ (o.n = 0x82 → v = k.cfg.fabslots) ∧
        (o.n ∈ [0x50, 0x78, 0x79] → v = 0) ∧
        (∀ x, s.part (s.partOf c) = some x → x.discards < 2 ^ 32 → x.refusals < 2 ^ 32 → o.n = 0x51 →
          v.toNat = x.discards * 2 ^ 32 + x.refusals)) ∧
    (∀ o : OpDN, PReady s c n st o.g [o.d] →
      let v := st.reg o.d
      let key := pairKey st
      let old := s.handlerPair c st
      let entry : Word × Word := (v &&& 0xFFFFFFFFFFFFFFFE, old.2)
      (o.n = 0x40 → exec (.mtsp o) s = .next ((s.modCore c (fun k => { k with hpairs := tblSet k.hpairs key entry })).done c n st)) ∧
      (o.n = 0x41 → exec (.mtsp o) s = .next ((s.modCore c (fun k => { k with hpairs := tblSet k.hpairs key (old.1, v) })).done c n st)) ∧
      (o.n = 0x58 → exec (.mtsp o) s = .next ((s.modCfg c (fun g => { g with mirtab := v &&& 0x000FFFFFFFFFFF81 })).done c n st)) ∧
      (o.n = 0x7E → exec (.mtsp o) s = .next ((s.modCfg c (fun g => { g with dumpctl := v &&& 0x800000000000FFFF })).done c n st)) ∧
      (o.n = 0x7F → exec (.mtsp o) s = .next ((s.modCfg c (fun g => { g with dumpva := v })).done c n st)) ∧
      (o.n ∈ [0x49, 0x51, 0x60, 0x61, 0x62, 0x68, 0x70, 0x71, 0x72, 0x73, 0x74, 0x75, 0x76, 0x77, 0x7A, 0x7B, 0x7C, 0x7D, 0x80, 0x81, 0x82] →
        exec (.mtsp o) s = .next (s.done c n st))) ∧
    (∀ o : OpD, PReady s c n st o.g [o.d] →
      exec (.vshareWrite o) s = .next ((s.modCore c (fun k =>
        { k with vshare := BitVec.ofNat 64 ((st.reg o.d).toNat % 256), vcount := Vector.replicate 2 0 })).done c n st))

/-- 15 R448, R449, R450; 07 R240: counters are read, configured, saved and loaded. -/
def Obligations.CountersOfACore : Prop :=
  ∀ (s : State) (c : CoreId) (n : Nat) (st : Strand),
    let k := s.core c
    (∀ o : OpDA, PReady s c n st o.g [o.a, o.d] →
      let a := (st.reg o.a).toNat
      let bank := a / 2 ^ 8 % 4
      ∃ v : Word, exec (.ctrrd o) s = .next (s.wrote c n st o.d v) ∧
        (∀ i : Fin 8, bank = 0 → a % 8 = i.val →
          let e : Nat := (k.dbg.ctr[i]).2.toNat / 2 ^ 40 % 256
          v = if (e = 15 ∨ e = 16) ∧ s.fabricVf (s.partOf c) = false then 0
              else BitVec.ofNat 64 ((k.dbg.ctr[i]).1.toNat % 2 ^ 48)) ∧
        (bank = 1 → v = if a % 64 < 53 then BitVec.ofNat 64 (tblGet 0 k.counters (a % 64)) else 0) ∧
        (bank = 2 → v = BitVec.ofNat 64 (tblGet 0 k.numevt (a % 64))) ∧ (bank = 3 → v = 0)) ∧
    (∀ (o : OpAB) (i : Fin 8), PReady s c n st o.g [o.a, o.b] → (st.reg o.a).toNat % 8 = i.val →
      let v := st.reg o.b
      let e := v.toNat / 2 ^ 40 % 256
      (e = 0 ∨ 16 < e → exec (.ctrcfg o) s = .next (s.done c n (st.setP 3 false))) ∧
      (1 ≤ e → e ≤ 16 →
        let x : Word × Word := (if v.getLsbD 60 then 0 else (k.dbg.ctr[i]).1,
          (v &&& 0xE000FF0000000000) ||| BitVec.ofNat 64 (k.vmid * 2 ^ 32))
        exec (.ctrcfg o) s = .next ((s.modCore c (fun k => { k with dbg := { k.dbg with ctr := k.dbg.ctr.set i x } })).done c n
          (st.setP 3 true)))) ∧
    (∀ (o : OpA) (pa : Nat) (leaf : Word) (s' : State), PReady s c n st o.g [o.a] →
      let k := st.bulk.getD ⟨memWrite [] 0 (s.core c).ctrArea, 256, 0, 1⟩
      (∀ i : Fin 8, dwAt (s.core c).ctrArea (16 * i.val) = ((s.core c).dbg.ctr[i]).1 ∧
        dwAt (s.core c).ctrArea (16 * i.val + 8) = ((s.core c).dbg.ctr[i]).2) ∧
      dwAt (s.core c).ctrArea 128 = BitVec.ofNat 64 ((s.core c).dbg.ovfpend % 256) ∧ (s.core c).ctrArea.length = 256 ∧
      ((st.reg o.a).toNat % 64 = 0 → k.pos < k.len → CalmCore s' c st →
        GranuleAt s (scalarCtx c n st) st (st.reg o.a) k.pos kWrite (memberInfo 5 5 2) pa leaf s' →
        ∃ t, exec (.ctrsave o) s = .next t ∧ s'.wroteGranule c n st (st.reg o.a) k pa t) ∧
      ((st.reg o.a).toNat % 64 = 0 → k.len ≤ k.pos → exec (.ctrsave o) s = .next (s.done c n st))) ∧
    (∀ (o : OpA) (b : List Byte), PReady s c n st o.g [o.a] → st.hasRead (st.reg o.a) 64 256 b →
      let pend := (dwAt b 128).toNat % 256
      ∃ t, exec (.ctrload o) s = .next t ∧ t.strandAt c n = some st.finish ∧ t.mem = s.mem ∧
        (∀ i : Fin 8, (t.core c).dbg.ctr[i] = (BitVec.ofNat 64 ((dwAt b (16 * i.val)).toNat % 2 ^ 48),
          dwAt b (16 * i.val + 8) &&& 0xE000FF3F00000000)) ∧
        (t.core c).dbg.ovfpend = 0 ∧ (pend = 0 → t.pkg = s.pkg) ∧
        (∀ x, s.part (s.partOf c) = some x → pend ≠ 0 → t.pkg.interrupts = s.pkg.interrupts ++ [(x.vf, pend)])) ∧
    (∀ (o : OpA), PReady s c n st o.g [o.a] → (st.reg o.a).toNat % 64 ≠ 0 →
      exec (.ctrsave o) s = .next (s.takeFault c n st (fAlign (st.reg o.a) 64)) ∧
      exec (.ctrload o) s = .next (s.takeFault c n st (fAlign (st.reg o.a) 64)))

/-- 10 R333, R341, R342, R351: contexts are installed and torn down; LAUNCH queues a record; LSTAT reads a launch's state. -/
def Obligations.ContextsAndLaunches : Prop :=
  ∀ (s : State) (c : CoreId) (n : Nat) (st : Strand),
    (∀ (o : OpD) (b : List Byte) (x : Partition), PReady s c n st o.g [o.d] → st.hasRead (st.reg o.d) 64 64 b →
      s.part (s.partOf c) = some x →
      let w := (dwAt b 0).toNat
      let p := s.partOf c
      let begun := st.bulk.isSome
      let tearing := w % 2 ^ 16 ∈ x.tearing
      let refused := w / 2 ^ 56 % 128 ≠ 0 ∨ w / 2 ^ 16 % 2 ^ 16 ≠ 0 ∨ (dwAt b 8).toNat / 2 ^ 48 ≠ 0 ∨ (dwAt b 48).toNat / 2 ^ 32 ≠ 0 ∨
        dwAt b 56 ≠ 0 ∨ x.live.length ≤ w / 2 ^ 32 % 2 ^ 16 ∨ (w < 2 ^ 63 ∧ s.context p (w % 2 ^ 16) = none)
      ∀ i ∈ [Instr.dctlInstall o, .dctlTeardown o],
        (begun = true → tearing → exec i s = .next (s.putStrand c n { st with run := .blocked .msg })) ∧
        (begun = true → ¬ tearing → exec i s = .next (s.done c n (st.setP 3 true))) ∧
        (begun = false → refused → exec i s = .next (s.done c n (st.setP 3 false))) ∧
        (begun = false → ¬ refused → 2 ^ 63 ≤ w → tearing → exec i s = .next (s.putStrand c n { st with run := .blocked .msg })) ∧
        (begun = false → ¬ refused → 2 ^ 63 ≤ w → ¬ tearing →
          let k : Context := ⟨w % 2 ^ 16, w / 2 ^ 48 % 256, w / 2 ^ 32 % 2 ^ 16, (dwAt b 8).toNat % 2 ^ 48, dwAt b 16, dwAt b 24,
            dwAt b 32, dwAt b 40, (dwAt b 48).toNat % 2 ^ 32⟩
          exec i s = .next ((s.setPart p { x with contexts := x.contexts.filter (fun y => y.asid != k.asid) ++ [k] }).done c n
            (st.setP 3 true))) ∧
        (begun = false → ¬ refused → w < 2 ^ 63 → (∀ l ∈ x.launches, l.asid ≠ w % 2 ^ 16) →
          ∃ t x', exec i s = .next t ∧ t.strandAt c n = some (st.setP 3 true).finish ∧ t.part p = some x' ∧ t.mem = s.mem ∧
            x'.contexts = x.contexts.filter (fun y => y.asid != w % 2 ^ 16))) ∧
    (∀ (o : OpDA) (pa : Nat) (leaf : Word) (b : List Byte) (s' : State), Ready s c n st o.g [o.a, o.d] →
      s.settled c st false → st.hasRead (st.reg o.a) 64 64 b →
      s.resolve (scalarCtx c n st) st .va (st.reg o.a) 0 kRead (memberInfo 4 2 0) = .ok pa leaf s' →
      let w : Vector Word 8 := Vector.ofFn (fun i : Fin 8 => dwAt b (8 * i.val))
      (∀ r x, s'.recRefused (s'.partOf c) st.asid w = some r → s'.part (s'.partOf c) = some x → x.refusals + 1 < 2 ^ 32 →
        exec (.launch o) s = .next ((s'.setPart (s'.partOf c) { x with refusals := x.refusals + 1 }).wrote c n (st.setP 3 false) o.d
          (BitVec.ofNat 64 (3 * 2 ^ 62 + r)))) ∧
      (s'.recRefused (s'.partOf c) st.asid w = none →
        exec (.launch o) s = .next ((s'.putStrand c n { st with run := .await .msg (waitFor (.launch o.d)) }).send c
          (s'.homeSlice (s'.partOf c) st.asid c) false (s'.tagOf c st.lslot) (.enqueue (some ⟨c, n, st.uid⟩) st.asid w 0)))) ∧
    (∀ o : OpDA, Ready s c n st o.g [o.a, o.d] → s.handleLocal c (st.reg o.a) = true →
      exec (.lstat o) s = .next (s.wrote c n st o.d (s.boardState (s.partOf c) (st.reg o.a)).2.2))

/-- 15 R432, R436, R438, R440: log slots are installed and removed, commands act on them, and SEAM asks for a seam. -/
def Obligations.LogSlotsAndCommands : Prop :=
  ∀ (s : State) (c : CoreId) (n : Nat) (st : Strand),
    (∀ (o : OpD) (b : List Byte) (x : Partition), PReady s c n st o.g [o.d] → st.hasRead (st.reg o.d) 64 64 b →
      s.part (s.partOf c) = some x →
      let w := (dwAt b 0).toNat
      let h := (dwAt b 8).toNat
      let m := (dwAt b 16).toNat
      let p := s.partOf c
      let i := w / 2 ^ 56 % 4
      let refused := w / 2 ^ 60 % 8 ≠ 0 ∨ w / 2 ^ 16 % 2 ^ 40 ≠ 0 ∨ w / 2 ^ 58 % 4 = 3 ∨ h / 2 ^ 30 % 2 ^ 18 ≠ 0 ∨ h % 2 ^ 16 ≠ 0 ∨
        dwAt b 40 ≠ 0 ∨ dwAt b 48 ≠ 0 ∨ dwAt b 56 ≠ 0 ∨
        (2 ^ 63 ≤ w ∧ (h / 2 ^ 48 = 0 ∨ m / 2 ^ 16 % 128 = 0 ∨ 64 < m / 2 ^ 16 % 128 ∨
          2 ^ 29 < h / 2 ^ 16 % 2 ^ 14 * 2 ^ 16 + h / 2 ^ 48 * 2 ^ 16 ∨ ∃ l ∈ x.logs, l.1 ≠ i ∧ l.2.asid = w % 2 ^ 16))
      ∀ j ∈ [Instr.logctlInstall o, .logctlRemove o],
        (st.bulk = none → refused → exec j s = .next ((s.setPart p { x with logLast := tblSet x.logLast i 6 }).done c n st)) ∧
        (st.bulk = none → ¬ refused → ∃ t x', exec j s = .next t ∧ t.part p = some x' ∧ t.mem = s.mem ∧ List.lookup i x'.logs = none ∧
          t.strandAt c n = some { st with bulk := some ⟨[], (s.ownCores p).length, 0, 0⟩, run := .blocked .msg }) ∧
        (∀ k, st.bulk = some k → k.pos < k.len →
          exec j s = .next ((overCores s (fun s d => s.modCore d (fun y => y.setShed i (if 2 ^ 63 ≤ w then (dwAt b 8, 0) else (0, 0))))
            (((s.ownCores p).drop k.pos).take 768)).putStrand c n { st with bulk := some { k with pos := k.pos + 768 }, run := .blocked .msg })) ∧
        (∀ k, st.bulk = some k → k.len ≤ k.pos →
          ∃ t x', exec j s = .next t ∧ t.strandAt c n = some st.finish ∧ t.part p = some x' ∧ t.mem = s.mem ∧
          tblGet 0 x'.logLast i = 0 ∧ (w < 2 ^ 63 → x'.logs = x.logs) ∧
          (2 ^ 63 ≤ w → ∃ l, List.lookup i x'.logs = some l ∧ l.asid = w % 2 ^ 16 ∧ l.policy = w / 2 ^ 58 % 4 ∧
            l.shsize = h / 2 ^ 48 ∧ l.shbase = h / 2 ^ 16 % 2 ^ 14 ∧ l.maxseam = m / 2 ^ 16 % 128 ∧ l.rsv = m % 2 ^ 16 ∧
            l.snap = dwAt b 24 ∧ l.snapsz = (dwAt b 32).toNat ∧ l.snapAsid = st.asid ∧ l.cur = 0 ∧ l.seams = [] ∧ l.frozen = false ∧ l.lost = false))) ∧
    (∀ (o : OpD) (x : Partition), PReady s c n st o.g [o.d] → s.part (s.partOf c) = some x →
      let w := (st.reg o.d).toNat
      let p := s.partOf c
      let i := w / 2 ^ 56 % 4
      let num := w % 2 ^ 24
      let op := w / 2 ^ 60
      let coded := fun (x : Partition) (code : Nat) => ({ x with logLast := tblSet x.logLast i code } : Partition)
      ∀ j ∈ [Instr.logcmdSeam o, .logcmdUnpick o, .logcmdForget o, .logcmdResume o],
        (List.lookup i x.logs = none → 1 ≤ op → op ≤ 4 → exec j s = .next ((s.setPart p (coded x 1)).done c n st)) ∧
        (op = 0 ∨ 4 < op → exec j s = .next (s.done c n st)) ∧
        (∀ l, List.lookup i x.logs = some l →
          (op = 1 → exec j s = .next ((s.setPart p { coded x 0 with seamReqs := x.seamReqs ++ [⟨i, some ⟨c, n, st.uid⟩, x.period⟩] }).putStrand
            c n { st with run := .await .msg (waitFor .command) })) ∧
          (∀ code, op = 2 → l.busy = none → s.unpickRefused p i num st.uid (w / 2 ^ 59 % 2 = 1) = some code →
            exec j s = .next ((s.setPart p (coded x code)).done c n st)) ∧
          (∀ m t, op = 2 → s.unpickRefused p i num st.uid (w / 2 ^ 59 % 2 = 1) = none → l.window num = m :: t →
            s.contextStill p x l.asid (some st.uid) = true →
            exec j s = .next (((s.unpick p i num st.uid x l m).setLast p i 0).done c n st)) ∧
          (op = 3 → ∃ t x' l', exec j s = .next t ∧ t.strandAt c n = some st.finish ∧ t.part p = some x' ∧
            tblGet 0 x'.logLast i = 0 ∧ List.lookup i x'.logs = some l' ∧
            l'.seams = l.seams.filter (fun y => decide ((y.n + 2 ^ 24 - num) % 2 ^ 24 < 2 ^ 23))) ∧
          (op = 4 → ∃ t x' l', exec j s = .next t ∧ t.strandAt c n = some st.finish ∧ t.part p = some x' ∧
            tblGet 0 x'.logLast i = 0 ∧ List.lookup i x'.logs = some l' ∧ l'.frozen = s.roomShort i x l))) ∧
    (∀ o : OpX, Ready s c n st o.g [o.x] →
      (s.logSlotOf (s.partOf c) st.asid = none → exec (.seam o) s = .next (s.wrote c n (st.setP 3 false) o.x 0)) ∧
      (∀ i l, s.logSlotOf (s.partOf c) st.asid = some (i, l) →
        (l.policy = 2 → exec (.seam o) s = .next (s.wrote c n (st.setP 3 false) o.x 0)) ∧
        (∀ x, l.policy ≠ 2 → s.settled c st false → s.part (s.partOf c) = some x →
          exec (.seam o) s = .next ((s.setPart (s.partOf c) { x with seamReqs := x.seamReqs ++ [⟨i, some ⟨c, n, st.uid⟩, x.period⟩] }).putStrand
            c n { st with run := .await .msg (waitFor (.seam o.x)) }))))

/-- 11 R367 to R370; 06 R199, R200; 07 R234; 12 R391: invalidations wait for their sweep; mirrors; trap return; replay; RETIRE. -/
def Obligations.SupervisorOperations : Prop :=
  ∀ (s : State) (c : CoreId) (n : Nat) (st : Strand),
    (∀ x, s.part (s.partOf c) = some x → s.settled c st false →
      let posted : InvOp → Out := fun q =>
        .next ((s.setPart (s.partOf c) { x with invq := x.invq ++ [q] }).putStrand c n { st with run := .await .msg (waitFor .inval) })
      let me : Option Ref := some ⟨c, n, st.uid⟩
      let ln := (s.core c).cfg.ln
      (∀ o : OpDAB, PReady s c n st o.g [o.d, o.a, o.b] →
        let m := st.reg o.d
        exec (.invr o) s = if st.reg o.b = 0 then .next (s.done c n st) else
          posted ⟨0, me, m.getLsbD 63, m.toNat / 2 ^ 16 % 64, m.toNat % 2 ^ 16, (st.reg o.a).toNat % 2 ^ 56, (st.reg o.b).toNat, s.now c, ln, none, []⟩) ∧
      (∀ o : OpA, PReady s c n st o.g [o.a] →
        let m := st.reg o.a
        exec (.inva o) s = posted ⟨1, me, m.getLsbD 63, m.toNat / 2 ^ 16 % 64, m.toNat % 2 ^ 16, 0, 0, s.now c, ln, none, []⟩) ∧
      (∀ o : OpAB, PReady s c n st o.g [o.a, o.b] →
        exec (.icinv o) s = if st.reg o.b = 0 then .next (s.done c n st) else
          posted ⟨2, me, false, (s.core c).vmid, st.asid, (st.reg o.a).toNat % 2 ^ 56, (st.reg o.b).toNat, s.now c, ln, none, []⟩)) ∧
    (∀ o : Op0, PReady s c n st o.g [] →
      (st.handlerOf = none → exec (.trapret o) s = .next (s.takeFault c n st (fIllegal 15 st.pc (chainInfo st.chain)))) ∧
      (∀ fr, st.handlerOf = some n → List.lookup n (s.core c).frozen = some fr → s.settled c st true →
        st.vctx = none → st.qb = none → (s.core c).vectorOpen st.uid = false →
        ∃ t u, exec (.trapret o) s = .next t ∧ t.strandAt c n = some u ∧ (t.core c).frameAt n = some (fr, false) ∧ t.mem = s.mem ∧
          u.pc = fr.st.pc ∧ u.g = fr.st.g ∧ u.p = fr.st.p ∧ u.stat = fr.st.stat ∧ u.fcw = fr.st.fcw ∧ u.jw = fr.st.jw ∧
          u.loops = fr.st.loops ∧ u.ldep = fr.st.ldep ∧ u.sid = fr.st.sid ∧ u.brkskip = fr.brkskip ∧ u.rq = [] ∧
          u.failrec = orUnsent fr.st.failrec fr.st.rq ∧ u.run = .ready)) ∧
    (∀ o : OpAB, PReady s c n st o.g [o.a, o.b] →
      let i := (st.reg o.b).toNat % 8
      (frameIndex (st.reg o.a) = none → exec (.reinj o) s = .next (s.takeFault c n st (fAccess (st.reg o.a) 0))) ∧
      (∀ m, frameIndex (st.reg o.a) = some m → (s.core c).reinjOpen m = false →
        let marked : Replay → State := fun e => s.modCore c (fun k => k.mapReplay m (fun x => x.setReplay i e))
        ((s.core c).replayStrand m = none → exec (.reinj o) s = .next (s.takeFault c n st (fAccess (st.reg o.a) 0))) ∧
        (∀ f, (s.core c).replayStrand m = some f →
          (f.rq[i]? = none → exec (.reinj o) s = .next (s.done c n (st.setP 3 false))) ∧
          (∀ e, f.rq[i]? = some e →
            let leaf := s.replayLeaf (placeCtx c f) e
            (e.state ≠ 0 → exec (.reinj o) s = .next (s.done c n (st.setP 3 true))) ∧
            (e.state = 0 → (st.reg o.b).getLsbD 8 = true → exec (.reinj o) s = .next ((marked { e with state := 2 }).done c n (st.setP 3 true))) ∧
            (e.state = 0 → (st.reg o.b).getLsbD 8 = false →
              ((∃ y ∈ f.rq.take i, y.state = 0) → exec (.reinj o) s = .next (s.done c n (st.setP 3 false))) ∧
              ((∀ y ∈ f.rq.take i, y.state ≠ 0) → isHost e.pa = false →
                (s.waferDown c.w (homeOf e.pa).w = true →
                  exec (.reinj o) s = .next ((s.modCore c (fun k => k.mapReplay m (fun x =>
                    { x with rq := x.rq.modify i (fun e => { e with why := 3 }) }))).done c n (st.setP 3 false))) ∧
                (s.waferDown c.w (homeOf e.pa).w = false → s.farRefuses c e.pa = false → homeOf e.pa = c → inControl (offOf e.pa) = false →
                  e.op = .st → e.pa % 16 + e.size ≤ 16 → (s.landsAt 9 e.pa).isSome = true → CalmHome s c leaf f.stat.log →
                  ∃ t, exec (.reinj o) s = .next t ∧ t.strandAt c n = some (st.setP 3 true).finish ∧
                    (∃ f', (t.core c).replayStrand m = some f' ∧ f'.rq = f.rq.modify i (fun e => { e with state := 1 })) ∧
                    memRead t.mem e.pa e.size = leBytes e.size e.data.toNat ∧
                    ∀ a, a < e.pa ∨ e.pa + e.size ≤ a → memGet t.mem a = memGet s.mem a) ∧
                (s.waferDown c.w (homeOf e.pa).w = false → s.farRefuses c e.pa = false → homeOf e.pa ≠ c → (homeOf e.pa).w = c.w →
                  (s.landsAt 9 e.pa).isSome = true →
                  exec (.reinj o) s = .next (s.sendRequest c n st (homeOf e.pa) .mem
                    ⟨e.pa, e.va, .post e.op e.size e.data, .reinj m i, false, e.rl, leaf, none, 0⟩))))))) ∧
    (∀ (o : OpAB) (pa : Nat) (leaf w : Word) (shift home : Nat) (b : List Byte) (s' : State), PReady s c n st o.g [o.a, o.b] →
      s.settled c st false → s.xlate (placeCtx c st) (st.reg o.a) kWrite = .ok pa w s' → st.hasRead (st.reg o.b) 64 128 b →
      s'.pageAt (placeCtx c st) (st.reg o.a) = some (leaf, shift, home) →
      let p := s'.partOf c
      let midx := (dwAt b 0).toNat % 256
      let ms := recordMirrors b ((dwAt b 0).toNat / 2 ^ 8 % 16)
      let fits := lfMirror leaf = true ∧ lfMidx leaf = midx ∧ (shift = 16 ∨ shift = 26) ∧ s'.mirrorsFit p home (2 ^ shift) ms = true ∧
        (s'.core c).cfg.mirtab.getLsbD 0 = true
      (¬ fits → exec (.mirset o) s = .next (s'.done c n (st.setP 3 false))) ∧
      (fits → s'.updatesOpen p = false → ∃ t, exec (.mirset o) s = .next t ∧ t.strandAt c n = some (st.setP 3 true).finish) ∧
      (fits → s'.updatesOpen p = true → exec (.mirset o) s = .next (s'.putStrand c n { st with run := .blocked .msg }))) ∧
    (∀ (o : OpAB), PReady s c n st o.g [o.a, o.b] →
      let len := (st.reg o.b).toNat
      (len = 0 → exec (.mirsync o) s = .next (s.done c n st)) ∧
      (∀ all s', len ≠ 0 → s.settled c st false → s.updatesOpen (s.partOf c) = false → State.mirsyncPages (len / 65536 + 2) s (placeCtx c st) (st.reg o.a) len = .ok all s' →
        exec (.mirsync o) s = .next (s'.done c n (st.setP 3 all)))) ∧
    (∀ o : OpAB, PReady s c n st o.g [o.a, o.b] →
      let p := s.partOf c
      let a := (st.reg o.a).toNat % 2 ^ 16
      let b := (st.reg o.b).toNat % 2 ^ 16
      (∀ k x, st.bulk = some k → s.part p = some x →
        (x.newMap.isSome = true → exec (.retire o) s = .next (s.putStrand c n { st with run := .blocked .msg })) ∧
        (x.newMap = none → exec (.retire o) s = .next (s.done c n (st.setP 3 true)))) ∧
      (st.bulk = none → s.lnCore p a = none ∨ s.lnCore p b = none → exec (.retire o) s = .next (s.done c n (st.setP 3 false))) ∧
      (∀ src dst, st.bulk = none → s.lnCore p a = some src → s.lnCore p b = some dst →
        (64 ∉ (s.core src).reserved → s.retireRefused p a b = true → exec (.retire o) s = .next (s.done c n (st.setP 3 false))) ∧
        (∀ x, s.part p = some x → s.retireRefused p a b = false → s.settled c st false →
          (x.newMap.isSome = true → exec (.retire o) s = .next (s.putStrand c n { st with run := .blocked .msg })) ∧
          (x.newMap = none → s.retireStill p src st.uid = true →
            exec (.retire o) s = .next ((s.putStrand c n { st with bulk := some ⟨[], 0, 0, 0⟩, run := .blocked .msg }).retireCore p a b src dst))))))

/-- 06 R203, R204; 14 R417 to R424: save records, and the partition operations of a groom. -/
def Obligations.SavesAndPartitionOperations : Prop :=
  ∀ (s : State) (c : CoreId) (n : Nat) (st : Strand) (pa : Nat) (leaf : Word) (s' : State) (b : List Byte),
    (∀ o : OpA, PReady s c n st o.g [o.a] → st.hasRead (st.reg o.a) 64 16 b →
      let va := st.reg o.a
      let asid := (dwAt b 0).toNat % 2 ^ 16
      let l := (dwAt b 0).toNat / 2 ^ 16 % 8
      let k := s.core c
      let r := s.recordImage c asid [dwAt b 0, dwAt b 8] (k.saveSet (inSlot asid l) (recInSlot asid l)) true
      (st.bulk = none → k.allStopped (inSlot asid l) (recInSlot asid l) = false → exec (.ctxsave o) s = .next (s.done c n (st.setP 3 false))) ∧
      (st.bulk = none → k.allStopped (inSlot asid l) (recInSlot asid l) = true → s.badPad c = none → k.merges = [] →
        exec (.ctxsave o) s = .next (s.putStrand c n { st with bulk := some ⟨r.1, r.2, 0, 1⟩, run := .blocked .mem })) ∧
      (∀ j, st.bulk = some j → j.pos < j.len → CalmCore s' c st →
        GranuleAt s (scalarCtx c n st) st va j.pos kWrite (memberInfo 5 3 2) pa leaf s' →
        ∃ t, exec (.ctxsave o) s = .next t ∧ s'.wroteGranule c n st va j pa t) ∧
      (∀ j, st.bulk = some j → j.len ≤ j.pos → exec (.ctxsave o) s = .next (((s.done c n (st.setP 3 true)).dropSaved c
        (inSlot asid l) (recInSlot asid l)).dropRings c asid))) ∧
    (∀ o : OpA, PReady s c n st o.g [o.a] → st.hasRead (st.reg o.a) 64 64 b →
      let va := st.reg o.a
      let asid := (dwAt b 0).toNat % 2 ^ 16
      let l := (dwAt b 0).toNat / 2 ^ 29 % 8
      (st.bulk = none → recordOk (memWrite [] 0 b) = false → exec (.ctxload o) s = .next (s.done c n (st.setP 3 false))) ∧
      (st.bulk = none → recordOk (memWrite [] 0 b) = true → exec (.ctxload o) s = .next (s.putStrand c n
        { st with bulk := some ⟨[], (dwAt b 24).toNat, 0, 1⟩, run := .blocked .mem })) ∧
      (∀ j, st.bulk = some j → j.phase = 1 → j.pos < j.len → GranuleAt s (scalarCtx c n st) st va j.pos kRead (memberInfo 5 3 3) pa leaf s' →
        let z := min (j.len - j.pos) (16 - (va + BitVec.ofNat 64 j.pos).toNat % 16)
        exec (.ctxload o) s = .next (s'.putStrand c n
          { st with bulk := some { j with img := imgAppend j.img j.pos (memRead s'.mem pa z), pos := j.pos + z }, run := .blocked .mem })) ∧
      (∀ j, st.bulk = some j → j.phase = 1 → j.len ≤ j.pos →
        let x := loadPlace c b j.img
        let r := s.parseRecord x j.img
        (s.roomFor c r = false → exec (.ctxload o) s = .next (s.done c n (st.setP 3 false))) ∧
        (s.roomFor c r = true → exec (.ctxload o) s = .next ((s.placeRecord x j.img r true).putStrand c n
          { st with bulk := some ⟨[], r.frames.length, s.nextId, 2⟩, run := .blocked .mem }))) ∧
      (∀ j, st.bulk = some j → j.phase = 2 → (s.core c).nextReplay j.pos j.len = none →
        exec (.ctxload o) s = .next ((s.done c n (st.setP 3 true)).resumeCore c (inSlot asid l) (recInSlot asid l)))) ∧
    (∀ o : OpDA, PReady s c n st o.g [o.a, o.d] → (st.reg o.a).toNat % 64 = 0 → s.settled c st false → b = st.rbuf →
      let ok := some ((st.setP 3 true).setG o.d 0).finish
      let begun : Nat → Option Bulk := fun k => some ⟨[], 0, 0, k⟩
      (b.length = 128 → (s.core c).cfg.ln ≠ 0xFFFF → ∀ i ∈ [Instr.quiesceHold o, .quiesceRelease o, .partset o, .partsetDissolve o, .wswitch o],
        exec i s = s.sysAnswer c n st o.d 5 0 0) ∧
      (b.length = 128 → (s.core c).cfg.ln = 0xFFFF →
        let w := (dwAt b 0).toNat
        let op := w / 2 ^ 56
        let num := w / 2 ^ 48 % 16
        let p := 16 * c.w + num
        let h := s.holdPass p
        ∀ i ∈ [Instr.quiesceHold o, .quiesceRelease o],
          (op ≠ 1 ∧ op ≠ 2 → exec i s = s.sysAnswer c n st o.d 2 0 0) ∧
          (op = 1 ∨ op = 2 → s.part p = none → exec i s = s.sysAnswer c n st o.d 2 (2 ^ num) 0) ∧
          (op = 2 → s.part p ≠ none → exec i s = (s.release p).sysAnswer c n st o.d 0 0 0) ∧
          (op = 1 → s.part p ≠ none →
            (h.1 = true → exec i s = .next (h.2.2.putStrand c n { st with bulk := begun 1, run := .blocked .msg })) ∧
            (h.1 = false → exec i s = h.2.2.sysAnswer c n st o.d (if h.2.1 = 0 then 0 else 6) (if h.2.1 = 0 then 0 else 2 ^ num) h.2.1)) ∧
          (∀ x, op = 1 ∨ op = 2 → s.part p = some x → (∀ l ∈ x.launches, l.slot = none) → ∃ t, exec i s = .next t ∧ t.strandAt c n = ok)) ∧
      (b.length = 128 → (s.core c).cfg.ln = 0xFFFF →
        let d := partDesc c.w b
        let p := 16 * c.w + d.part
        let publishing : Prop := ∃ q ∈ s.groupOf c.w d, ∃ x, s.part q = some x ∧ x.newMap.isSome = true
        ∀ i ∈ [Instr.partset o, .partsetDissolve o],
          ((∀ j, st.bulk = some j → j.phase ≠ 2) →
            (∀ x, s.partCheck c.w d = some x → exec i s = s.sysAnswer c n st o.d x.1 x.2.1 x.2.2) ∧
            (s.partCheck c.w d = none → s.taggedOpen (s.groupOf c.w d) = true ∨ publishing →
              exec i s = .next (s.putStrand c n { st with bulk := begun 1, run := .blocked .msg })) ∧
            (s.partCheck c.w d = none → s.taggedOpen (s.groupOf c.w d) = false → ¬ publishing →
              (d.valid = true → exec i s = .next (((s.partApply c.w d).beginMap p ((s.partApply c.w d).coresOf p) none).putStrand c n
                { st with bulk := begun 2, run := .blocked .msg })) ∧
              (d.valid = false → exec i s = (s.dissolve p).sysAnswer c n st o.d 0 0 0 ∧ ∃ t, exec i s = .next t ∧ t.strandAt c n = ok))) ∧
          (∀ j, st.bulk = some j → j.phase = 2 → ¬ publishing → exec i s = s.sysAnswer c n st o.d 0 0 0)) ∧
      (let w := (dwAt b 0).toNat
        let num := w / 2 ^ 16 % 16
        let p := 16 * c.w + num
        let out := dwAt b 8
        let inn := dwAt b 16
        let h := s.holdPass p
        let bad : Partition → Prop := fun x => w / 2 ^ 46 ≠ 0 ∨ w / 2 ^ 38 % 4 ≠ 0 ∨ w / 2 ^ 20 % 2 ^ 12 ≠ 0 ∨ w / 2 ^ 14 % 4 ≠ 0 ∨ w % 256 ≠ 0 ∨
          (∃ i < 13, dwAt b (24 + 8 * i) ≠ 0) ∨ w / 2 ^ 32 % 64 ≠ x.vf ∨ out.toNat % 2 ^ 16 ≠ 0 ∨ inn.toNat % 2 ^ 16 ≠ 0
        (b.length = 128 ∧ inn = 0) ∨ b.length = 136 → (s.core c).cfg.ln = 0xFFFF →
          (s.part p = none → exec (.wswitch o) s = s.sysAnswer c n st o.d 2 (2 ^ num) 0) ∧
          (∀ x, s.part p = some x → bad x → exec (.wswitch o) s = s.sysAnswer c n st o.d 2 0 0) ∧
          (∀ x, s.part p = some x → ¬ bad x → h.1 = true →
            exec (.wswitch o) s = .next (h.2.2.putStrand c n { st with bulk := begun 1, run := .blocked .msg })) ∧
          (∀ x, s.part p = some x → ¬ bad x → h.1 = false → h.2.1 ≠ 0 →
            exec (.wswitch o) s = (h.2.2.release p).sysAnswer c n st o.d 6 (2 ^ num) h.2.1) ∧
          (∀ x x2, s.part p = some x → ¬ bad x → h.1 = false → h.2.1 = 0 →
            h.2.2.resolve (placeCtx c st) st .va out 0 kWrite (memberInfo 5 4 2) = .ok pa leaf s' → s'.part p = some x2 →
            exec (.wswitch o) s = (s'.switchVf p x2 pa (if inn = 0 then 0 else ofLe (b.drop 128)) (w / 2 ^ 40 % 64) (w / 2 ^ 8 % 64)
              (inn = 0)).sysAnswer c n st o.d 0 0 0) ∧
          (∀ x x2, s.part p = some x → ¬ bad x → (∀ l ∈ x.launches, l.slot = none) →
            h.2.2.resolve (placeCtx c st) st .va out 0 kWrite (memberInfo 5 4 2) = .ok pa leaf s' → s'.part p = some x2 →
            ∃ t, exec (.wswitch o) s = .next t ∧ t.strandAt c n = ok))) ∧
    (∀ o : Op0, PReady s c n st o.g [] →
      ((s.core c).cfg.groom = false → exec (.halt o) s = .next (s.takeFault c n st (fPrivilege 0 (memberInfo 5 4 3)))) ∧
      ((s.core c).cfg.groom = true → ∃ t, exec (.halt o) s = .next t ∧ (t.core c).cfg.halted = true ∧ t.strandAt c n = some st.finish ∧
        t.mem = s.mem))

/-- 07 R208 to R211, R217 to R226, R232; 15 R446: the turns of a core cycle, a breakpoint, and the journey of a strand to another core:
its departure, its admission or its bounce, what admission reads, the resend, and the forwarding at a retired core. -/
def Obligations.JourneysOfStrands : Prop :=
  ∀ s : State,
    (∀ c, ∃ t, exec (.barrelTurn ⟨c⟩) s = .next t ∧ t.mem = s.mem ∧ t.net = s.net ∧ t.cycle = s.cycle ∧
      (∀ d n, t.strandAt d n = s.strandAt d n) ∧
      let bin := fun b : Nat => ((s.core c).slots.filter (fun e => e.1 / 16 = b && s.wouldIssue c (s.core c) e.2)).length
      let more := fun i : Nat => tblGet 0 (t.core c).counters i = (tblGet 0 (s.core c).counters i + 1) % 2 ^ 48
      (bin 0 ≤ 16 → bin 1 ≤ 16 → ∀ b < 2, more (4 * b + s.turnClass c (s.core c) (16 * b + s.turnSlot c)) ∧ more (8 + 17 * b + bin b))) ∧
    (∀ c n st i, s.strandAt c n = some st → st.isReady = true → st.brkskip = false → (s.core c).dbg.stop = false →
      (s.core c).breakpoint st = some i →
      exec (.breakPoint ⟨c, n⟩) s = .next (s.takeTrap c n st ⟨3, st.pc, #v[BitVec.ofNat 64 i, 0, 0, 0]⟩)) ∧
    (∀ c n st dst op e, s.strandAt c n = some st → st.run = .departing dst op → st.posts = [] → st.lds = [] → st.trap = none →
      (s.core c).freeEntry = some e →
      ∃ t x, exec (.coatDeparture ⟨c, n⟩) s = .next t ∧ s.posted t c dst false (.coat x) ∧ t.mem = s.mem ∧
        List.lookup e (t.core c).departures = some ⟨x, false, 0, .clean⟩ ∧
        ((s.core c).nextCoat = none → t.strandAt c n = none) ∧
        x.op = op ∧ x.src = c ∧ x.entry = e ∧ x.fwd = 0 ∧ x.bounce = 0 ∧ x.needAnnex = decide (3 ≤ st.ldep) ∧ x.st.uid = st.uid ∧ x.st.p = st.p ∧ x.st.stat = st.stat ∧
        (∀ r : Fin 16, x.st.g[r] = if st.stat.heavy = true ∨ 3 ≤ st.ldep ∨ r.val < 8 then st.g[r] else 0)) ∧
    (∀ i m x, Arrives s i m (.coat x) →
      ((s.core m.dst).admits x = none → ∃ t, exec (.coatArrival ⟨i⟩) s = .next t ∧ t.mem = s.mem ∧
        t.newest m.dst x.src true (.bounced { x with bounce := min 7 (x.bounce + 1) })) ∧
      (∀ n, (s.core m.dst).admits x = some n →
        let pa := (s.core m.dst).spillPa m.dst (s.core m.dst).freeSpill
        ∃ t, exec (.coatArrival ⟨i⟩) s = .next t ∧
          (∀ a, ¬ (n = 33 ∧ pa ≤ a ∧ a < pa + 256) → memGet t.mem a = memGet s.mem a) ∧
          (x.needAnnex = true → t.newest m.dst x.src false (.annexReq x.entry x.st.uid) ∧ n ∈ (t.core m.dst).reserved) ∧
          (∀ l d, x.needAnnex = false → x.st.lslot = some l → (s.core m.dst).descOf x.st.cln l = none → s.crewCore m.dst x.st = some d →
            t.newest m.dst d false (.descReq l x.st.uid) ∧ n ∈ (t.core m.dst).reserved) ∧
          (x.needAnnex = false → (∀ l, x.st.lslot = some l → (s.core m.dst).descOf x.st.cln l ≠ none) →
            s.posted t m.dst x.src true (.admitted x.entry) ∧
            (n < 32 → ∃ u, t.strandAt m.dst n = some u ∧ u.uid = x.st.uid ∧ u.g = x.st.g ∧ u.p = x.st.p ∧ u.pc = x.st.pc)))) ∧
    (∀ i m l cln y x, Arrives s i m (.descReply l cln (some y)) → (s.core m.dst).admitting = [x] → (s.core m.dst).cfg.ln ≠ cln →
      x.st.cln = cln → x.st.lslot = some l → x.needDesc = true → x.needAnnex = false → x.place < 32 →
      ∃ t u, exec (.crewDescriptorReply ⟨i⟩) s = .next t ∧ t.strandAt m.dst x.place = some u ∧ t.newest m.dst x.src true (.admitted x.entry) ∧
        u.uid = x.st.uid ∧ u.g = x.st.g ∧ u.asid = y.asid ∧ u.task = BitVec.ofNat 64 y.taskv ∧ u.gang = BitVec.ofNat 64 y.gangv ∧
        u.fmta = y.fmta ∧ u.fmtb = y.fmtb ∧ u.sca = y.sca ∧ u.scb = y.scb ∧ u.stat.log = y.log) ∧
    (∀ i m uid x, Arrives s i m (.annexReply uid) → (s.core m.dst).admitting = [x] → x.st.uid = uid → x.needDesc = false → x.place < 32 →
      ∃ t u, exec (.annexReply ⟨i⟩) s = .next t ∧ t.strandAt m.dst x.place = some u ∧ t.newest m.dst x.src true (.admitted x.entry) ∧
        u.uid = uid ∧ u.g = x.st.g ∧ u.loops = x.st.loops ∧ u.ldep = x.st.ldep) ∧
    (∀ i m e, Arrives s i m (.admitted e) →
      exec (.admissionAck ⟨i⟩) s = .next ((s.receive i m).modCore m.dst (fun k =>
        { k with departures := k.departures.filter (fun d => d.1 != e) }))) ∧
    (∀ i m x, Arrives s i m (.bounced x) →
      (x.fwd < 8 → ∃ t, exec (.bounceLanding ⟨i⟩) s = .next t ∧ t.mem = s.mem ∧
        List.lookup x.entry (t.core m.dst).departures = some ⟨x, true, s.cycle + min 8192 (64 * 2 ^ (x.bounce - 1)),
          match List.lookup x.entry (s.core m.dst).departures with | none => .clean | some d => d.mark⟩) ∧
      (8 ≤ x.fwd → ∃ t, exec (.bounceLanding ⟨i⟩) s = .next t ∧ List.lookup x.entry (t.core m.dst).departures = none ∧
        (x.st.lslot ≠ none → ∃ y d p l f, t.net.getLast? = some y ∧ y.dst = d ∧ y.body = .faultRec p l f ∧ f.kind = 9 ∧ f.info = 8 ∧
          f.sid = x.st.sid ∧ f.pc = x.st.pc))) ∧
    (∀ c e d, List.lookup e (s.core c).departures = some d → d.landed = true → d.ready ≤ s.cycle → d.coat.st.isStopped = false →
      ∃ t, exec (.bounceBackoffExpiry ⟨c, e⟩) s = .next t ∧ t.newest c d.coat.dst false (.coat d.coat) ∧ t.mem = s.mem ∧
        List.lookup e (t.core c).departures = some { d with landed := false }) ∧
    (∀ i m b, s.net[i]? = some m → s.deliverable i m = true → m.body = b → m.isReturn = false → (s.core m.dst).cfg.fwdValid = true →
      let heir := s.lnCore (s.partOf m.dst) (s.core m.dst).cfg.heir
      (∀ d, heir = some d → (∀ x, b ≠ .coat x) → m.fwd % 16 < 8 →
        ∃ t y, exec (.coatForward ⟨i⟩) s = .next t ∧ t.net.getLast? = some y ∧ y.src = m.dst ∧ y.dst = d ∧ y.fwd = m.fwd + 1 ∧
          y.body = b.rebase m.dst d) ∧
      (∀ d x, heir = some d → b = .coat x → x.fwd + 1 < 8 → ∃ t y, exec (.coatForward ⟨i⟩) s = .next t ∧ t.net.getLast? = some y ∧ y.dst = d ∧
        y.body = .coat { x with dst := d, fwd := x.fwd + 1, op := x.op.map (MemReq.rebase m.dst d) }) ∧
      (∀ x, b = .coat x → 7 ≤ x.fwd → ∃ t, exec (.coatForward ⟨i⟩) s = .next t ∧
        t.newest m.dst x.src true (.bounced { x with fwd := max 8 x.fwd, bounce := min 7 (x.bounce + 1) })))

/-- 05 R146, R149, R150, R153, R155, R170 to R178; 07 R215; 11 R366; 13 R399; 15 R445: a request at its home, its resends and its
withdrawal; replies, acknowledgements and refusals at their strand; posted operations, merge groups, boards, cancels and mirrors. -/
def Obligations.RequestsAndReplies : Prop :=
  ∀ s : State,
    (∀ i m ref r, Arrives s i m (.request ref r) →
      let s1 := s.receive i m
      let h := m.dst
      let out := if isReadReq m.body then exec (.remoteReadRequest ⟨i⟩) s
        else if isAmoReq m.body then exec (.amoRequest ⟨i⟩) s else exec (.waitRequest ⟨i⟩) s
      let served := s1.serve h r (s1.replayWriter ref r)
      let due := r.limit.isSome && s1.isDue ((s1.strandOf ref).bind (·.deadline))
      (s1.turnedAway m r.pa ≠ none → ∃ t, out = .next t ∧ t.newest h ref.core true (.reply ref r .refused) ∧ t.mem = s.mem) ∧
      (s1.turnedAway m r.pa = none →
        ((s.core h).dbg.stop = true → r.cont.isReplay = true → ∃ t, out = .next t ∧ t.newest h ref.core true (.reply ref r .refused)) ∧
        ((s.core h).dbg.stop = true → r.cont.isReplay = false →
          ∃ t, out = .next t ∧ t.newest h ref.core true (.resend ref r h (s.cycle + 256) false)) ∧
        ((s.core h).dbg.stop = false → s1.replayOf ref.core r = none →
          (∀ a s2, served = some (a, s2) → ∃ t, out = .next t ∧ t.newest h ref.core true (.reply ref r a) ∧ t.mem = s2.mem) ∧
          (served = none → due = true → ∃ t, out = .next t ∧ t.mem = s.mem ∧
            t.newest h ref.core true (.reply ref r (.withdrawn (BitVec.ofNat 64 (s.memNat r.pa r.size))))) ∧
          (served = none → due = false →
            (((s.core h).waiters.filter (fun w => !w.isLocal)).length < 64 →
              out = .next (s1.modCore h (fun k => { k with waiters := k.waiters ++ [⟨ref, r, false, m.id, m.tag⟩] }))) ∧
            (64 ≤ ((s.core h).waiters.filter (fun w => !w.isLocal)).length →
              ∃ t, out = .next t ∧ t.newest h ref.core true (.resend ref r h (s.cycle + 256) true)))))) ∧
    (∀ i m l uid, Arrives s i m (.descReq l uid) → ∃ t cln, exec (.remoteReadRequest ⟨i⟩) s = .next t ∧
      ((∀ y, List.lookup l (s.core m.dst).crews = some y → y.mark ≠ .double) →
        t.newest m.dst m.src true (.descReply l cln (List.lookup l (s.core m.dst).crews))) ∧
      (∀ y, List.lookup l (s.core m.dst).crews = some y → y.mark = .double → ∃ d p f, t.newest m.dst d false (.faultRec p l f) ∧
        f.kind = 10 ∧ f.addr = BitVec.ofNat 64 (coreBase m.dst + 0x30000200 + 64 * l)) ∧
      (∀ x, (s.core m.src).admitting.find? (fun x => decide (x.st.uid = uid)) = some x → cln = x.st.cln)) ∧
    (∀ i m e uid, Arrives s i m (.annexReq e uid) → ∃ t, exec (.remoteReadRequest ⟨i⟩) s = .next t ∧
      ((∀ d, List.lookup e (s.core m.dst).departures = some d → d.mark ≠ .double) → t.newest m.dst m.src true (.annexReply uid)) ∧
      (∀ d l, List.lookup e (s.core m.dst).departures = some d → d.mark = .double → d.coat.st.lslot = some l →
        ∃ h p f, t.newest m.dst h false (.faultRec p l f) ∧ f.kind = 10 ∧ f.sid = d.coat.st.sid)) ∧
    (∀ i m ref r d ready full, Arrives s i m (.resend ref r d ready full) → ready ≤ s.cycle →
      let out := if full then exec (.waiterResendTimer ⟨i⟩) s else exec (.requestResendTimer ⟨i⟩) s
      ((s.receive i m).stillAsks ref r = true → ∃ t, out = .next t ∧ t.newest ref.core d false (.request ref r)) ∧
      ((s.receive i m).stillAsks ref r = false → out = .next (s.receive i m))) ∧
    (∀ i m ref x w, Arrives s i m (.withdraw ref x) → (s.core m.dst).waiters = [w] → w.ref = ref → w.isLocal = false →
      (∀ id q, w.req.cont ≠ .lds id q) →
      ∃ t, exec (.waitWithdrawal ⟨i⟩) s = .next t ∧ (t.core m.dst).waiters = [] ∧
        t.newest m.dst ref.core true (.reply ref w.req (.withdrawn (BitVec.ofNat 64 (ofLe (memRead s.mem w.req.pa w.req.size)))))) ∧
    (∀ c n st d, s.strandAt c n = some st → st.deadline = some d → d ≤ s.cycle → (s.core c).dbg.stop = false →
      (∀ cls, st.run = .blocked cls → exec (.blockLimitExpiry ⟨c, n⟩) s = .next s) ∧
      (∀ cls r w mem v, st.run = .await cls r → r.cont = .wait mem v → isHost r.pa = false → homeOf r.pa = c → st.stat.wtrap = false →
        (s.core c).waiters = [w] → w.ref.uid = st.uid → w.req = r →
        ∃ t, exec (.blockLimitExpiry ⟨c, n⟩) s = .next t ∧ t.strandAt c n = some (st.setP 3 false).finish ∧ (t.core c).waiters = [] ∧
          t.mem = s.mem)) ∧
    (∀ i m ref r a id q st l, Arrives s i m (.reply ref r a) → r.cont = .lds id q → s.strandAt ref.core ref.slot = some st →
      (s.core ref.core).strandsOf (fun x => decide (x.uid = ref.uid)) = [st] → st.uid = ref.uid → st.lds = [l] → l.id = id →
      st.pending l.d = .load → lfMirror r.leaf = false →
      (∀ v f w sq, a = .value v f w sq → ∃ t, exec (.ldsReply ⟨i⟩) s = .next t ∧ t.mem = s.mem ∧
        t.strandAt ref.core ref.slot = some ({ st with lds := [] }.setG l.d (extend true l.size v))) ∧
      (∀ g, a = .uncorrectable g → (s.core ref.core).standing ref.uid = some (ref.slot, st) →
        exec (.ldsReply ⟨i⟩) s = .next ((s.receive i m).takeFaultAt ref.core ref.slot { st with lds := [] } l.pc 0 (fBadRead g)))) ∧
    (∀ i m ref r a st cls, Arrives s i m (.reply ref r a) → (s.receive i m).awaits ref st cls r → st.trap = none → st.stat.qbound = false →
      lfMirror r.leaf = false →
      let c := ref.core
      let n := ref.slot
      let s1 := s.receive i m
      (∀ v f q d z signed, a = .value v f none q → r.cont = .load d z signed false →
        exec (.remoteReply ⟨i⟩) s = .next (s1.wrote c n st d (extend signed z v))) ∧
      (∀ v f q d z cas, a = .value v f none q → r.cont = .amo d z cas →
        exec (.remoteReply ⟨i⟩) s = .next (s1.wrote c n (if cas then st.setP 3 f else st) d v)) ∧
      (∀ v f w q, a = .value v f w q → r.cont = .block → exec (.remoteReply ⟨i⟩) s = .next (s1.putStrand c n
        { st with run := .blocked .mem, bulk := st.bulk.map (fun b => { b with pos := b.pos + r.size }) })) ∧
      (∀ l q, a = .bytes l q → exec (.remoteReply ⟨i⟩) s = .next (s1.putStrand c n (st.took l))) ∧
      (∀ v f w q k j, a = .value v f w q → r.cont = .reinj k j → exec (.remoteReply ⟨i⟩) s = .next ((s1.modCore c (fun y => y.mapReplay k (fun x =>
        { x with rq := x.rq.modify j (fun e => { e with state := 1 }) }))).done c n (st.setP 3 true))) ∧
      (∀ v f q mm x, a = .value v f none q → r.cont = .wait mm x → exec (.remoteReply ⟨i⟩) s = .next (s1.done c n (st.setP 3 true))) ∧
      (∀ d z signed test, a = .refused → r.cont = .load d z signed test →
        exec (.remoteReply ⟨i⟩) s = .next (s1.takeFault c n st (accessFault r)))) ∧
    (∀ i m ref h st cls q d, Arrives s i m (.enqueueReply ref h) → (s.receive i m).awaits ref st cls q → q.cont = .launch d →
      st.stat.qbound = false → hKind h ≠ 3 →
      exec (.remoteReply ⟨i⟩) s = .next ((s.receive i m).done ref.core ref.slot (((st.setP 3 true).setG d h).setPend d .handle))) ∧
    (∀ i m ref p leaf asid log l, Arrives s i m (.post ref p leaf asid log l) →
      let s1 := s.receive i m
      let out := if isPostedRed m.body then exec (.redArrival ⟨i⟩) s else exec (.postedWriteArrival ⟨i⟩) s
      (∀ why, s1.postWhy m p.pa = some why → ∃ t, out = .next t ∧ t.newest m.dst ref.core true (.postNak ref p.id why) ∧ t.mem = s.mem) ∧
      (s1.postWhy m p.pa = none → CalmHome s m.dst leaf log → isHost p.pa = false → inControl (offOf p.pa) = false → homeOf p.pa = m.dst →
        p.size ∈ [1, 2, 4, 8] →
        (p.op = .st → ∃ t, out = .next t ∧ t.newest m.dst ref.core true (.postAck ref p.id none) ∧
          ofLe (memRead t.mem p.pa p.size) = p.data.toNat % 2 ^ (8 * p.size) ∧ t.feEmpty = s.feEmpty ∧
          (∀ a, a < p.pa ∨ p.pa + p.size ≤ a → memGet t.mem a = memGet s.mem a)) ∧
        (∀ op, p.op = .red op → (op.isFp = true → (decFp .f32 (p.data.toNat % 2 ^ (8 * p.size))).isNaN = false) →
          ∃ t g, out = .next t ∧ t.newest m.dst ref.core true (.postAck ref p.id none) ∧ t.mem = s.mem ∧
            (t.core m.dst).merges = [g] ∧ g.line = p.pa / 64 ∧ g.op = op ∧ g.size = p.size ∧
            g.vals = [(p.pa % 64, p.data.toNat % 2 ^ (8 * p.size))]))) ∧
    (∀ c g, Memory.wf s.mem = true → (s.core c).merges = [g] → g.lastAt + 512 ≤ s.cycle → (s.core c).dbg.stop = false → s.ecc = [] →
      (s.core c).waiters = [] → g.logged = false → lfMirror g.leaf = false →
      ∃ t, exec (.mergeGroupTimeout ⟨c, 0⟩) s = .next t ∧ (t.core c).merges = [] ∧
        (∀ a, (∀ v ∈ g.vals, a < 64 * g.line + v.1 ∨ 64 * g.line + v.1 + g.size ≤ a) → memGet t.mem a = memGet s.mem a) ∧
        (∀ off v, g.vals = [(off, v)] → g.op = .add →
          ofLe (memRead t.mem (64 * g.line + off) g.size) = (ofLe (memRead s.mem (64 * g.line + off) g.size) + v) % 2 ^ (8 * g.size))) ∧
    (∀ i m ref id st p, (s.receive i m).strandAt ref.core ref.slot = some st → st.uid = ref.uid → st.posts = [p] → p.id = id →
      (Arrives s i m (.postAck ref id none) → ∃ t, exec (.postAck ⟨i⟩) s = .next t ∧ t.mem = s.mem ∧
        t.strandAt ref.core ref.slot = some { st with posts := [] }) ∧
      (∀ why, Arrives s i m (.postNak ref id why) → st.trap = none → ∃ t, exec (.postRefusal ⟨i⟩) s = .next t ∧ t.mem = s.mem ∧
        t.strandAt ref.core ref.slot = some { st with posts := [], failrec := st.failrec.add (decide (why = 3)) (failAddr p) })) ∧
    (∀ i m ref h k, Arrives s i m (.boardQuery ref h k) → (s.core m.dst).dbg.stop = false →
      let r := s.boardState (s.partOf m.dst) h
      ∃ t, exec (.boardQuery ⟨i⟩) s = .next t ∧ t.newest m.dst ref.core true (.boardReply ref k r.1 r.2.1 r.2.2)) ∧
    (∀ i m ref k state prog lst st cls q, Arrives s i m (.boardReply ref k state prog lst) → (s.receive i m).awaits ref st cls q → q.cont = k →
      st.stat.qbound = false →
      let s1 := s.receive i m
      let c := ref.core
      let n := ref.slot
      (∀ a, k = .source a → 2 ≤ state → exec (.boardReply ⟨i⟩) s = .next (s1.putStrand c n { st.setPend a .clear with run := .blocked .msg })) ∧
      (∀ d a, k = .fstatus d a → exec (.boardReply ⟨i⟩) s = .next (s1.wrote c n st d (BitVec.ofNat 64 (state * 2 ^ 60 + prog % 2 ^ 32)))) ∧
      (∀ d a, k = .lstat d a → exec (.boardReply ⟨i⟩) s = .next (s1.wrote c n st d lst))) ∧
    (∀ i m h r, Arrives s i m (.cancel h) → (s.core m.dst).dbg.stop = false → (s.receive i m).record m.dst (hSlot h) = some r →
      r.seq = hSeq h → hKind h = 1 → r.isCopy = false →
      exec (.cancelRequest ⟨i⟩) s = .next ((s.receive i m).endRecord m.dst (hSlot h) r .cancelled)) ∧
    (∀ i m midx seq runs uids, Arrives s i m (.mirrorUpdate midx seq runs uids) → Memory.wf s.mem = true → (s.core m.dst).dbg.stop = false →
      (s.core m.dst).merges = [] →
      let base := coreBase m.dst
      ∃ t, exec (.mirrorUpdate ⟨i⟩) s = .next t ∧ t.newest m.dst m.src true (.mirrorAck uids) ∧
        (∀ off data, runs = [(off, data)] → memRead t.mem (base + off) data.length = data) ∧
        (∀ a, (∀ r ∈ runs, a < base + r.1 ∨ base + r.1 + r.2.length ≤ a) → memGet t.mem a = memGet s.mem a))

/-- 09 R281, R286 to R292, R296, R301 to R303; 06 R205, R206: appends, credits and steals at their rings and at their strands; the steps
of a copy and of its chunks; a dependence; and an engine request at its proxy. -/
def Obligations.RingsAndCopiesBetweenCores : Prop :=
  ∀ s : State,
    (∀ i m ref ri asid cidx data r, Arrives s i m (.append ref ri asid cidx data) → (s.core m.dst).dbg.stop = false → s.ring m.dst ri = some r →
      let away := (s.receive i m).turnedAway m (coreBase m.dst) ≠ none
      (away ∨ r.open asid = false → ∃ t, exec (.appendArrival ⟨i⟩) s = .next t ∧ t.mem = s.mem ∧
        (away → t.newest m.dst ref.core true (.appendReply ref cidx false true)) ∧
        (¬ away → t.newest m.dst ref.core true (.appendReply ref cidx false false)) ∧
        t.ring m.dst ri = some (if r.asid = asid then { r with granted := r.granted - 1 } else r)) ∧
      (¬ away → r.open asid = true → r.mode = 0 → r.ready = [] → r.claim = r.pub → r.pub < 65536 → data.length = r.size →
        CalmHome s m.dst 0 ((s.receive i m).writerOf ref 0).log →
        let pa := coreBase m.dst + r.at r.claim
        let c' := (r.claim + 1) % 65536
        ∃ t, exec (.appendArrival ⟨i⟩) s = .next t ∧ t.newest m.dst ref.core true (.appendReply ref cidx true false) ∧
          t.ring m.dst ri = some { r with granted := r.granted - 1, claim := c', pub := c' } ∧ memRead t.mem pa data.length = data ∧
          (∀ a, a < pa ∨ pa + data.length ≤ a → memGet t.mem a = memGet s.mem a))) ∧
    (∀ i m ref ci ok sw st cls q x, Arrives s i m (.appendReply ref ci ok sw) → (s.receive i m).awaits ref st cls q → q.cont = .rapp x →
      let s1 := s.receive i m
      (ok = true ∨ sw = true → exec (.appendReply ⟨i⟩) s = .next (s1.done ref.core ref.slot (st.setP 3 ok))) ∧
      (ok = false → sw = false → exec (.appendReply ⟨i⟩) s = .next ((s1.dropCredit ref.core ci).done ref.core ref.slot (st.setP 3 false))) ∧
      (∀ e t, ok = false → sw = false → s1.credit ref.core ci = some e → exec (.appendReply ⟨i⟩) s = .next t →
        t.credit ref.core ci = some { e with valid := false, req := false, resend := none })) ∧
    (∀ i m ri asid ci r, Arrives s i m (.creditReq ri asid ci) → (s.core m.dst).dbg.stop = false →
      (s.receive i m).turnedAway m (coreBase m.dst) = none → s.ring m.dst ri = some r →
      let g := min r.cbatch r.f
      let gave := fun (n z : Nat) (no : Bool) => ∃ t, exec (.creditRequest ⟨i⟩) s = .next t ∧ t.newest m.dst m.src true (.creditGrant ci n z no) ∧
        t.ring m.dst ri = some { r with granted := r.granted + n }
      (r.open asid = false → gave 0 0 true) ∧ (r.open asid = true → 0 < g → gave g r.sizem1 false) ∧
      (r.open asid = true → g = 0 → 8 ≤ r.waiters.length → gave 0 r.sizem1 false) ∧
      (r.open asid = true → g = 0 → r.waiters.length < 8 → exec (.creditRequest ⟨i⟩) s = .next ((s.receive i m).setRing m.dst ri
        { r with waiters := r.waiters ++ [((s.core m.src).cfg.ln, ci)] }))) ∧
    (∀ i m ci g z no e, Arrives s i m (.creditGrant ci g z no) → s.credit m.dst ci = some e →
      let s1 := s.receive i m
      (no = true → exec (.creditGrant ⟨i⟩) s = .next (s1.setCredit m.dst ci { e with valid := false, req := false, resend := none })) ∧
      (no = false → g = 0 → exec (.creditGrant ⟨i⟩) s = .next (s1.setCredit m.dst ci { e with resend := some (s.cycle + 256) })) ∧
      (no = false → 0 < g → exec (.creditGrant ⟨i⟩) s = .next (s1.setCredit m.dst ci
        { e with credits := e.credits + g, req := false, sizem1 := z, resend := none }))) ∧
    (∀ c n e t0 d, s.credit c n = some e → e.resend = some t0 → t0 ≤ s.cycle → s.lnCore (s.partOf c) e.ln = some d →
      ∃ t, exec (.creditResendTimer ⟨c, n⟩) s = .next t ∧ t.newest c d false (.creditReq e.ring e.asid n) ∧
        t.credit c n = some { e with resend := none }) ∧
    (∀ i m ref ri asid ci n r, Arrives s i m (.creditReturn (some ref) ri asid ci n) → (s.core m.dst).dbg.stop = false → s.ring m.dst ri = some r →
      ∃ t, exec (.creditReturn ⟨i⟩) s = .next t ∧ t.newest m.dst ref.core true (.creditReturned ref ci n) ∧
        t.ring m.dst ri = some (if r.asid = asid then { r with granted := r.granted - n } else r)) ∧
    (∀ i m ref ri asid r, Arrives s i m (.steal ref ri asid) → (s.core m.dst).dbg.stop = false → (s.core m.dst).merges = [] →
      (s.receive i m).turnedAway m (coreBase m.dst) = none → s.ring m.dst ri = some r →
      (r.mode = 1 ∧ r.asid = asid ∧ 1 ≤ r.p → ∃ t, exec (.stealRequest ⟨i⟩) s = .next t ∧ t.mem = s.mem ∧
        t.ring m.dst ri = some { r with head := (r.head + 1) % 65536 } ∧
        t.newest m.dst ref.core true (.stealReply ref (some (memRead s.mem (coreBase m.dst + r.at r.head) r.size)))) ∧
      (¬ (r.mode = 1 ∧ r.asid = asid ∧ 1 ≤ r.p) → ∃ t, exec (.stealRequest ⟨i⟩) s = .next t ∧ t.mem = s.mem ∧
        t.ring m.dst ri = some r ∧ t.newest m.dst ref.core true (.stealReply ref none))) ∧
    (∀ i m ref data st cls q x off, Arrives s i m (.stealReply ref data) → (s.receive i m).awaits ref st cls q → q.cont = .rsteal x off →
      let pa := coreBase ref.core + off
      (data = none → exec (.stealReply ⟨i⟩) s = .next ((s.receive i m).done ref.core ref.slot (st.setP 3 false))) ∧
      (∀ b, data = some b → off % 16 = 0 → b.length % 16 = 0 → 0x20000000 ≤ off → off + b.length ≤ 0x20100000 →
        CalmHome s ref.core 0 st.stat.log →
        ∃ t, exec (.stealReply ⟨i⟩) s = .next t ∧ t.strandAt ref.core ref.slot = some (st.setP 3 true).finish ∧
          memRead t.mem pa b.length = b ∧ (∀ a, a < pa ∨ pa + b.length ≤ a → memGet t.mem a = memGet s.mem a))) ∧
    (∀ i m rc og pa data asid log bcb leaf, Arrives s i m (.chunk rc og pa data asid log bcb false leaf) →
      let s1 := s.receive i m
      (s1.turnedAway m pa ≠ none → ∃ t, exec (.copyChunkArrival ⟨i⟩) s = .next t ∧ t.newest m.dst og true (.chunkNak rc (some pa)) ∧ t.mem = s.mem) ∧
      (s1.turnedAway m pa = none → s1.chunkHeld m = true → ∃ t, exec (.copyChunkArrival ⟨i⟩) s = .next t ∧ t.newest m.dst og true (.chunkNak rc none) ∧
        t.mem = s.mem ∧ (coreKey og, rc) ∈ (t.core m.dst).notify) ∧
      (s1.turnedAway m pa = none → s1.chunkHeld m = false → inControl (offOf pa) = false → homeOf pa = m.dst → CalmHome s m.dst leaf log →
        ∃ t, exec (.copyChunkArrival ⟨i⟩) s = .next t ∧ t.newest m.dst og true (.chunkAck rc data.length) ∧ memRead t.mem pa data.length = data ∧
          (∀ a, a < pa ∨ pa + data.length ≤ a → memGet t.mem a = memGet s.mem a) ∧
          (∀ b x, bcb = some b → List.lookup b (s.core m.dst).bcbs = some x → x.asid = asid →
            List.lookup b (t.core m.dst).bcbs = some { x with count := min (x.count + data.length) (2 ^ 32 - 1) }))) ∧
    (∀ i m rc r j, s.record m.dst rc = some r → r.job = .copy j → r.state = .running →
      (∀ n, Arrives s i m (.chunkAck rc n) → exec (.copyChunkArrival ⟨i⟩) s = .next ((s.receive i m).setRecord m.dst rc
        { r with job := .copy { j with landed := j.sent } })) ∧
      (Arrives s i m (.chunkNak rc none) → r.cancel = false → exec (.copyChunkRefused ⟨i⟩) s = .next ((s.receive i m).setRecord m.dst rc
        { r with state := .pending, job := .copy { j with sent := j.landed, resume := s.cycle + 65536 } })) ∧
      (∀ pa, Arrives s i m (.chunkNak rc (some pa)) → exec (.copyChunkRefused ⟨i⟩) s = .next ((s.receive i m).recordFault m.dst rc r
        (fAccess (BitVec.ofNat 64 pa) 0)))) ∧
    (∀ c n r j, s.record c n = some r → r.job = .copy j → r.state = .pending → (s.core c).copiesRunning < (s.core c).channels →
      (∀ i m, m.dst = c → Arrives s i m (.resumeNotice n) →
        exec (.copyResumeNotice ⟨i⟩) s = .next ((s.receive i m).setRecord c n { r with state := .running })) ∧
      (s.unitHeld c r = false → j.resume ≤ s.cycle → exec (.copyPendingTimeout ⟨c, n⟩) s = .next (s.setRecord c n { r with state := .running }))) ∧
    (∀ c n r j, s.record c n = some r → r.job = .copy j → r.state = .running → s.unitHeld c r = false → j.sent = j.landed →
      (j.landed < j.len → r.cancel = true → exec (.copyChunkSend ⟨c, n⟩) s = .next (s.endRecord c n r .cancelled)) ∧
      (∀ data pa leaf s1 s2, j.landed < j.len → r.cancel = false →
        let k := min (j.len - j.sent) (64 - (j.dst.toNat + j.sent) % 64)
        State.unitRead 4 s c r (formOf j.sform) j.src j.sent k = .ok data s1 →
        s1.unitResolve c r (formOf j.dform) j.dst j.sent kWrite = .ok pa leaf s2 → isHost pa = false → (homeOf pa).w = c.w →
        ∃ t, exec (.copyChunkSend ⟨c, n⟩) s = .next t ∧ t.mem = s2.mem ∧
          t.newest c (homeOf pa) false (.chunk n c pa data r.asid r.log (if j.bcben then some j.bcb else none) j.fill leaf) ∧
          t.record c n = some { r with job := .copy { j with sent := j.sent + k } }) ∧
      (j.len ≤ j.landed → j.pub = false ∨ j.len = 0 → ∃ t, exec (.copyDone ⟨c, n⟩) s = .next t ∧ t.ended c n r .done)) ∧
    (∀ c n r, s.record c n = some r → r.state = .waitdep →
      (s.deps (s.partOf c) r.deps = .failed → exec (.dependenceResolved ⟨c, n⟩) s = .next (s.endRecord c n r .cancelled)) ∧
      (s.deps (s.partOf c) r.deps = .met → ∃ t, exec (.dependenceResolved ⟨c, n⟩) s = .next t ∧ t.mem = s.mem ∧
        t.record c n = some { r with state := if (s.core c).inputsReady r then .eligible else .waitin })) ∧
    (∀ c n r j, s.record c n = some r → r.job = .copy j → r.state = .eligible → s.unitHeld c r = false → s.firstInOrder c n r = true →
      (s.core c).copiesRunning < (s.core c).channels →
      ∃ t, exec (.taskIssue ⟨c, n⟩) s = .next t ∧ t.record c n = some { r with state := .running, job := .copy { j with started := true } }) ∧
    (∀ i m ref hops sel, Arrives s i m (.proxyQuery ref hops sel) → (s.core m.dst).dbg.stop = false →
      ((s.core m.dst).has 2 = true → ∃ t, exec (.proxyRequest ⟨i⟩) s = .next t ∧
        t.newest m.dst ref.core true (.proxyReply ref ((s.core m.dst).query sel) 1)) ∧
      (∀ d, (s.core m.dst).has 2 = false → s.nextProxy m.dst 2 hops = some d → ∃ t, exec (.proxyRequest ⟨i⟩) s = .next t ∧
        t.newest m.dst d false (.proxyQuery ref (hops + 1) sel)) ∧
      ((s.core m.dst).has 2 = false → s.nextProxy m.dst 2 hops = none → ∃ t, exec (.proxyRequest ⟨i⟩) s = .next t ∧
        t.newest m.dst ref.core true (.proxyReply ref (BitVec.ofNat 64 hops) 2)))

/-- 07 R236; 09 R297, R308, R310, R316 to R320; 12 R387 to R390; 16 R459, R460: the steps of a matrix task, and the arrivals and
completions of crew barriers, gang channels and fabric phases. -/
def Obligations.MatrixStepsAndBarrierPhases : Prop :=
  ∀ s : State,
    (∀ c n r m, s.record c n = some r → r.job = .matrix m → r.state = .eligible → s.unitHeld c r = false → s.firstInOrder c n r = true →
      (s.core c).unitFree r = true → m.prog = none → m.isScore = false → m.init = false →
      ∃ t, exec (.taskIssue ⟨c, n⟩) s = .next t ∧ t.record c n = some { r with state := .running, job := .matrix { m with acc := [] } }) ∧
    (∀ c n r m qa qb ba bb s1 s2, s.record c n = some r → r.job = .matrix m → r.state = .running → s.unitHeld c r = false → m.isScore = false →
      m.step < m.steps → m.ringA ≠ m.ringB → s.ring c m.ringA = some qa → s.ring c m.ringB = some qb → 1 ≤ qa.p → 1 ≤ qb.p →
      qa.mode = 0 → qb.mode = 0 → qa.waiters = [] → qb.waiters = [] → fmtScaled m.fmta = false → fmtScaled m.fmtb = false →
      s.readPa (coreBase c + qa.at qa.head) ((m.rows + 1) * frameBytes m.fmta) 0 true = .ok ba s1 →
      s1.readPa (coreBase c + qb.at qb.head) ((m.cols + 1) * frameBytes m.fmtb) 0 true = .ok bb s2 →
      s2.ring c m.ringA = some qa → s2.ring c m.ringB = some qb →
      let k := min 32 (m.kn - 32 * m.step)
      let a := (List.range (m.rows + 1)).map (fun x => frameElems m.fmta ((ba.drop (x * frameBytes m.fmta)).take (frameBytes m.fmta)) k)
      let b := (List.range (m.cols + 1)).map (fun x => frameElems m.fmtb ((bb.drop (x * frameBytes m.fmtb)).take (frameBytes m.fmtb)) k)
      anyVN m.fmta a = none → anyVN m.fmtb b = none →
      ∃ t m', exec (.matrixStep ⟨c, n⟩) s = .next t ∧ t.record c n = some { r with job := .matrix m' } ∧ t.mem = s2.mem ∧
        m'.step = m.step + 1 ∧
        (∀ x ≤ m.rows, ∀ y ≤ m.cols, m.rows < 32 → m.cols < 32 → tblGet 0 m'.acc (32 * x + y) =
          (stepElem m (fmtBlen m.fmta) (fmtBlen m.fmtb) (a.getD x []) (b.getD y []) [] [] (tblGet 0 m.acc (32 * x + y))).1) ∧
        t.ring c m.ringA = some { qa with head := (qa.head + 1) % 65536 } ∧ t.ring c m.ringB = some { qb with head := (qb.head + 1) % 65536 }) ∧
    (∀ c n r m, s.record c n = some r → r.job = .matrix m → r.state = .running → s.unitHeld c r = false →
      (m.isScore = true → m.ncand ≤ m.published → exec (.taskDone ⟨c, n⟩) s = .next (s.endRecord c n r .done)) ∧
      (m.isScore = false → m.steps ≤ m.step → m.toc = false → ∃ t, exec (.taskDone ⟨c, n⟩) s = .next t ∧ t.ended c n r .done) ∧
      (∀ b s1, m.refresh = true → m.usesTheta = true → s.readTheta c r m = .ok b s1 → exec (.thetaRefresh ⟨c, n⟩) s = .next (s1.setRecord c n
        { r with job := .matrix { m with refresh := false, theta := thetaMax m.theta (ofLe b) } }))) ∧
    (∀ c n i r m, (s.core c).runningTask = some (i, r, m) → m.isScore = true → s.unitHeld c r = false →
      (∀ qa qc b h tg s1 s2 s3 s4 s5, n < 32 → List.lookup n m.lanes = none → m.taken < m.ncand → s.ring c m.ringA = some qa →
        s.ring c m.ringC = some qc → 1 ≤ qa.p → m.lanes.length + 1 ≤ qc.f → s.readPa (coreBase c + qa.at qa.head) 8 0 true = .ok b s1 →
        let va := dwAt b 0
        let nblk := (dwAt h 8).toNat % 2 ^ 16
        s1.linesHere c r va 0 1 = .here s2 → State.unitRead 2 s2 c r .va va 0 64 = .ok h s3 →
        s3.linesHere c r va 1 (tagLines nblk + (nblk * m.bb + 63) / 64) = .here s4 →
        State.unitRead (nblk / 16 + 3) s4 c r .va va 64 (4 * nblk) = .ok tg s5 →
        exec (.scoreLaneTake ⟨c, n⟩) s = .next ((s5.ringPop c m.ringA 1 (unitWriter r 0)).laneStart c i r { m with taken := m.taken + 1 } n va
          (dwAt h 0) ((dwAt h 16).toNat % 2 ^ 16) ((List.range nblk).map (fun j => ofLe ((tg.drop (4 * j)).take 4))))) ∧
      (∀ l, List.lookup n m.lanes = some l →
        (l.nblk ≤ l.j → exec (.scoreBlock ⟨c, n⟩) s = .next (s.laneResult c i r m n
          (resultEntry l.id l.uflags l.s false false (l.nanin && (decFp .f32 l.s).isNaN) l.noverdict false) false)) ∧
        (l.j < l.nblk → l.tags.length = l.nblk → m.qscales.length = m.qblocks → l.verdict = true →
          abandons m.cls l.s (((l.tags.drop l.j).map (fun t => m.covers (t % 2 ^ 16))).sum)
            (((l.tags.getD l.j 0 / 2 ^ 24 : Nat) : Int) - 127 + ((m.qmax : Int) - 127) + maxposLog m.fmta + maxposLog m.fmtb)
            (l.nblk - l.j) m.theta = true →
          exec (.scoreBlock ⟨c, n⟩) s = .next (s.laneResult c i r m n
            (resultEntry l.id l.uflags (verdictNaN m.cls l.j) false false false l.noverdict true) true)) ∧
        (∀ d q s1 s2, l.j < l.nblk → l.tags.length = l.nblk → m.qscales.length = m.qblocks → l.verdict = false →
          let tag := l.tags.getD l.j 0
          let bid := tag % 2 ^ 16
          let k := m.covers bid
          s.lineRead c r l.va (64 + 64 * tagLines l.nblk + l.j * m.bb) m.bb = .ok d s1 →
          s1.padRead c (m.qaddr + bid * fmtBlen m.fmta / 32 * frameBytes m.fmta) (frameBytes m.fmta) = .ok q s2 →
          let x := scoreBlock m (((frameElems m.fmta q 32).drop (bid * fmtBlen m.fmta % 32)).take k) (frameElems m.fmtb d k)
            (m.qscales.getD bid 127) (tag / 2 ^ 24) l.s
          ∃ t m' l', exec (.scoreBlock ⟨c, n⟩) s = .next t ∧ t.record c i = some { r with job := .matrix m' } ∧ t.mem = s2.mem ∧
            m'.blocks = m.blocks + 1 ∧ List.lookup n m'.lanes = some l' ∧ l'.j = l.j + 1 ∧ l'.s = x.1 ∧ l'.nanin = (l.nanin || x.2.2.1)) ∧
        (∀ s1, l.j < l.nblk → l.tags.length = l.nblk → m.qscales.length = m.qblocks → l.verdict = false →
          s.lineRead c r l.va (64 + 64 * tagLines l.nblk + l.j * m.bb) m.bb = .away s1 →
          exec (.scoreBlock ⟨c, n⟩) s = .next (s1.laneResult c i r m n
            (resultEntry l.id l.uflags Fmt.f32.nan true false false l.noverdict false) false)))) ∧
    (∀ i m l mem ref x, Arrives s i m (.crewArrive l mem ref) → List.lookup l (s.core m.dst).crews = some x → x.mark = .clean →
      maskHas x.pendrel mem = false →
      let x' : Crew := { x with refs := tblSet x.refs mem ref, arrived := x.arrived ||| 2 ^ mem }
      (coversAll x.size (x'.arrived ||| x.exited) = false →
        exec (.crewArrive ⟨i⟩) s = .next ((s.receive i m).modCore m.dst (fun k => { k with crews := tblSet k.crews l x' }))) ∧
      (coversAll x.size (x'.arrived ||| x.exited) = true → ∃ t y, exec (.crewArrive ⟨i⟩) s = .next t ∧ List.lookup l (t.core m.dst).crews = some y ∧
        y.phase = (x.phase + 1) % 2 ^ 32 ∧ y.pendrel = x'.arrived ∧ y.arrived = 0 ∧ y.exited = x.exited ∧
        (x.arrived = 0 → mem < 32 → t.newest m.dst ref.core true (.crewDone ref l mem y.phase (decide (x.exited ≠ 0)))))) ∧
    (∀ i m r l mem ph seen st cls q d, Arrives s i m (.crewDone r l mem ph seen) → (s.receive i m).awaits r st cls q → q.cont = .barc d →
      st.stat.qbound = false → ∃ t, exec (.crewCompletion ⟨i⟩) s = .next t ∧ t.newest r.core m.src true (.crewDoneAck l mem) ∧
        t.strandAt r.core r.slot = some (st.setG d (BitVec.ofNat 64 (b01 seen * 2 ^ 32 + ph))).finish ∧ t.mem = s.mem) ∧
    (∀ i m l mem x, Arrives s i m (.crewDoneAck l mem) → List.lookup l (s.core m.dst).crews = some x → x.mark = .clean → maskHas x.pendrel mem = true →
      exec (.crewCompletionAck ⟨i⟩) s = .next ((s.receive i m).modCore m.dst (fun k =>
        { k with crews := tblSet k.crews l { x with pendrel := x.pendrel - 2 ^ mem } }))) ∧
    (∀ i m l mem x, Arrives s i m (.crewExit l mem) → List.lookup l (s.core m.dst).crews = some x → x.mark = .clean →
      let x' : Crew := { x with exited := x.exited ||| 2 ^ mem }
      (coversAll x.size (x.arrived ||| x'.exited) = false → (s.core m.dst).chans = [] →
        exec (.crewExitNotice ⟨i⟩) s = .next ((s.receive i m).modCore m.dst (fun k => { k with crews := tblSet k.crews l x' }))) ∧
      (coversAll x.size (x.arrived ||| x'.exited) = true → ∃ t y, exec (.crewExitNotice ⟨i⟩) s = .next t ∧
        List.lookup l (t.core m.dst).crews = some y ∧ y.phase = (x.phase + 1) % 2 ^ 32 ∧ y.pendrel = x.arrived ∧ y.arrived = 0 ∧
        y.exited = x'.exited)) ∧
    (∀ i m l ch mem v kind x, Arrives s i m (.gangArrive l ch mem v kind) → List.lookup l (s.core m.dst).crews = some x → x.removed = false →
      (s.core m.dst).isFabric ch = false →
      let y := (s.core m.dst).chanOf l ch
      y.posted = none →
      ∃ t z, exec (.gangArrive ⟨i⟩) s = .next t ∧ (t.core m.dst).chan? l ch = some z ∧ z.arrived = y.arrived ||| 2 ^ mem ∧
        z.vals = tblSet y.vals mem (v, kind) ∧ z.phase = y.phase ∧ z.done = y.done ∧
        (coversAll x.size (z.arrived ||| x.exited) = false → z.posted = none) ∧
        (∀ q, coversAll x.size (z.arrived ||| x.exited) = true → s.part (s.partOf m.dst) = some q → z.posted = some q.period)) ∧
    (∀ (e : EvPhase) x l g d y k, s.part e.p = some x → x.slotLaunch e.lslot = some l → l.gangs.find? (fun z => decide (z.no = e.gang)) = some g →
      s.gangCrews e.p l g = [(d, d)] → (s.core d).chan? e.lslot e.chan = some y → s.phaseReady e.p e.lslot l g e.chan = true →
      y.posted = some k → k + 2 ≤ x.period → s.headCore e.p = some d → (s.core d).isFabric e.chan = false →
      let r := collect (s.phaseVals e.p e.lslot l g e.chan)
      ∃ t z, exec (.gangPhaseComplete e) s = .next t ∧ t.mem = s.mem ∧ (t.core d).chan? e.lslot e.chan = some z ∧
        z.done = y.done ||| y.arrived ∧ z.arrived = 0 ∧ z.posted = none ∧ z.phase = (y.phase + 1) % 2 ^ 32 ∧ z.result = r.1 ∧ z.ok = r.2.1 ∧
        z.flags = r.2.2 ∧ z.shrunk = y.shrinking) ∧
    (∀ i m part ch vals kind, Arrives s i m (.fabPartial part ch vals kind) →
      let p := s.partOf m.dst
      let members := s.groupParts (waferOfPart p)
      s.pkg.fabPhases.find? (fun f => f.part = p && decide (f.chan = ch)) = none →
      ((∃ q ∈ members, q ≠ part) → exec (.fabricPartialArrival ⟨i⟩) s = .next (
        let s1 := s.receive i m
        { s1 with pkg := { s1.pkg with fabPhases := s1.pkg.fabPhases.filter (fun f => !(f.part = p && decide (f.chan = ch))) ++
          [⟨p, ch, [(part, vals, kind)]⟩] } })) ∧
      (∀ d, members = [part] → kind ≠ 0xFFFF → s.headCore part = some d →
        let r := collect (vals.map (fun v => (v.1, v.2, kind)))
        ∃ t, exec (.fabricPartialArrival ⟨i⟩) s = .next t ∧ t.newest m.dst d true (.fabResult ch r.1 r.2.1 r.2.2))) ∧
    (∀ i m ch v ok fl x, Arrives s i m (.fabResult ch v ok fl) → s.part (s.partOf m.dst) = some x →
      exec (.fabricResult ⟨i⟩) s = .next ((s.receive i m).setPart (s.partOf m.dst)
        { x with fabResults := x.fabResults.filter (fun r => r.chan != ch) ++ [⟨ch, v, ok, fl, x.period⟩] }))

/-- 06 R188 to R190, R202; 10 R331 to R353, R485; 12 R382, R385: launches and gangs at the dispatcher, the periods of the wheel and a new
live map. -/
def Obligations.LaunchesAndGangs : Prop :=
  ∀ s : State,
    (∀ i m ref asid w d x, Arrives s i m (.enqueue (some ref) asid w d) → s.part (s.partOf m.dst) = some x →
      let p := s.partOf m.dst
      (∀ z, (s.receive i m).recRefused p asid w = some z → ∃ t, exec (.enqueue ⟨i⟩) s = .next t ∧ t.mem = s.mem ∧
        t.newest m.dst ref.core true (.enqueueReply ref (badHandle z)) ∧
        t.part p = some { x with refusals := min (x.refusals + 1) (2 ^ 32 - 1) }) ∧
      (∀ k h, (s.receive i m).recRefused p asid w = none → s.context p asid = some k → s.lnCore p k.home = some h →
        x.tearing.contains asid = true → ∃ t hd, exec (.enqueue ⟨i⟩) s = .next t ∧ t.newest m.dst ref.core true (.enqueueReply ref hd) ∧
          t.part p = some { x with discards := min (x.discards + 1) (2 ^ 32 - 1) }) ∧
      (∀ k h, (s.receive i m).recRefused p asid w = none → s.context p asid = some k → s.lnCore p k.home = some h →
        x.tearing.contains asid = false → ∃ t l x', exec (.enqueue ⟨i⟩) s = .next t ∧ t.newest m.dst ref.core true (.enqueueReply ref (mkHandle 2 k.home l.bslot l.seq)) ∧
          t.part p = some x' ∧ x'.launches = x.launches ++ [l] ∧ l.asid = asid ∧ l.words = w ∧ l.level = recPrio w ∧ l.entered = s.cycle ∧
          l.state = .waitdep ∧ l.slot = none ∧ l.gangs = [] ∧ l.saved = [] ∧ l.fault = none ∧ l.cancelled = false)) ∧
    (∀ p n x l, s.part p = some x → x.launch n = some l →
      (l.state = .waitdep → s.deps p (recDeps l.words) = .met →
        launchIs (exec (.launchDepResolved ⟨p, n⟩) s) p n { l with state := .queued, entered := s.cycle }) ∧
      (∀ k, s.context p l.asid = some k → l.inQueue = true → k.age ≠ 0 → l.level < 7 → k.age ≤ (s.cycle - l.entered) * 10 / 36 →
        launchIs (exec (.launchAgeing ⟨p, n⟩) s) p n { l with level := l.level + 1, entered := s.cycle }) ∧
      (∀ k, x.head = some l → l.order = n → x.shut = false → l.slot = none → k < 8 → x.slotLaunch k = none →
        (∀ j < k, x.slotLaunch j ≠ none) →
        ∃ t, exec (.launchSelect ⟨p⟩) s = .next t ∧
          t.launchAt p n = some { l with slot := some k, state := if recCount l.words = 0 then .sweeping else .placing, sweep := none } ∧
          (∀ c ∈ x.live, List.lookup k (t.core c).lctr = none)) ∧
      (∀ sl no kx corner h, x.head = some l → l.order = n → x.shut = false → l.slot = some sl → l.saved = [] → l.nextNo = some no →
        s.context p l.asid = some kx → s.rectFor p l sl = some corner → s.lnCore p kx.home = some h → s.wantsSeam p l = none →
        ∃ t l', exec (.gangPlacement ⟨p, n⟩) s = .next t ∧ t.launchAt p n = some l' ∧
          l'.gangs = l.gangs ++ [⟨no, corner.x, corner.y, false, false, false, 0, []⟩] ∧ l'.nextGang = max l.nextGang (no + 1) ∧
          (∀ c ∈ rectCores corner.w corner.x corner.y (recGw l.words) (recGh l.words),
            List.lookup sl (t.core c).crews = some (crewEntry l sl no corner c) ∧
            List.lookup sl (t.core c).hpairs = some (setBit kx.hentry 0 false, kx.harg))) ∧
      (∀ kx sl x', x.head = some l → l.order = n → x.shut = false → (∀ y ∈ x.launches, ∀ g ∈ y.gangs, g.stopping = false) →
        l.slot = some sl → s.context p l.asid = some kx → kx.preempt / 2 ^ l.level % 2 = 1 → s.rectFor p l sl = none →
        chooseVictims p l sl s x (x.victims l.level) = some x' → exec (.preemptVictims ⟨p, n⟩) s = .next (s.setPart p x'))) ∧
    (∀ p n gang x l sl g, s.placed p x n l sl → l.gangs.find? (fun y => decide (y.no = gang)) = some g →
      let lns := s.gangLns p l g
      (g.started = false → g.stopping = false → l.startSeam = false → l.stopping = false → x.newMap = none → s.ctxFrozen p l.asid = false →
        ∃ t, exec (.gangStart ⟨p, n, gang⟩) s = .next t ∧
          (∃ l' g', t.launchAt p n = some l' ∧ l'.gangs.find? (fun y => decide (y.no = gang)) = some g' ∧ g'.started = true ∧
            l'.startedGangs = l.startedGangs + (if g.resumed then 0 else 1)) ∧
          (∀ c ∈ x.live, ∀ k st, s.strandAt c k = some st → ofGang l.asid sl lns st = true → st.run = .stopped none →
            t.strandAt c k = some { st with run := .ready, failrec := orUnsent st.failrec st.rq, rq := [] })) ∧
      (g.stopping = true → ∃ t, exec (.preemptionStop ⟨p, n, gang⟩) s = .next t ∧
        (∀ c ∈ x.live, ∀ k st, s.strandAt c k = some st → ((s.core c).slots.map (·.1)).Nodup → ofGang l.asid sl lns st = true →
          st.run = .ready → st.trap = none → st.hold = none → st.midBulk = false → st.drained = true →
          (s.core c).vectorOpen st.uid = false →
          t.strandAt c k = some { (if st.handlerOf.isNone then zeroPorts st else st) with
            run := .stopped none, deadline := none, trap := none, nest := none, rbuf := [] })) ∧
      (∀ k h vas s1, g.stopping = true → l.stopping = false → s.gangStill x p l sl g = true → s.context p l.asid = some k → s.lnCore p k.home = some h →
        x.poolTake k l.gangSize = some vas →
        s.saveCores x k h sl lns (l.gangCores p g) (l.gangCores p g) vas = .ok s1 → s1.launchAt p n = some l →
        ∃ t l' sg, exec (.gangSave ⟨p, n, gang⟩) s = .next t ∧ t.launchAt p n = some l' ∧
          l'.gangs = l.gangs.filter (fun y => y.no != gang) ∧ l'.saved = l.saved ++ [sg] ∧ sg.no = gang ∧ sg.recs = vas ∧ sg.x0 = g.x0 ∧
          sg.y0 = g.y0 ∧ l'.state = .placing ∧ l'.slot = if l'.gangs.isEmpty then none else some sl)) ∧
    (∀ p n c x l sl g, s.placed p x n l sl →
      l.gangs.find? (fun y => (l.gangCores p y).contains c && !y.ended.contains c) = some g →
      g.started = true ∨ l.stopping = true → g.stopping = false → s.crewAlive x.live p l.asid sl (s.core c).cfg.ln = false →
      (∀ r ∈ (s.core (s.standIn c)).records, recInSlot l.asid sl r.2 = false) →
      ∃ t, exec (.crewEnd ⟨p, n, c⟩) s = .next t ∧ List.lookup sl (t.core c).crews = none ∧
        ((∀ d ∈ l.gangCores p g, d = c ∨ d ∈ g.ended) →
          (l.saved = [] → t.launchAt p n = some
            (Launch.settle { l with gangs := l.gangs.filter (fun y => y.no != g.no), endedGangs := l.endedGangs + 1 })) ∧
          (l.saved ≠ [] → l.stopping = false → ∃ l', t.launchAt p n = some l' ∧ l'.endedGangs = l.endedGangs + 1 ∧ l'.state = .placing ∧
            l'.slot = if l.gangs.all (fun y => decide (y.no = g.no)) then none else some sl)) ∧
        (¬ (∀ d ∈ l.gangCores p g, d = c ∨ d ∈ g.ended) → t.launchAt p n = some { l with gangs := l.gangs.map (fun y =>
          if y.no = g.no then { y with ended := y.ended ++ [c] } else y) })) ∧
    (∀ i m p sl f x l, Arrives s i m (.faultRec p sl f) → s.part p = some x → x.slotLaunch sl = some l → x.launch l.order = some l →
      ∃ t l', exec (.faultRecordArrival ⟨i⟩) s = .next t ∧ t.launchAt p l.order = some l' ∧ t.mem = s.mem ∧
        (l.fault = none → l'.fault = some f ∧ l'.stopping = true ∧ l'.more = l.more ∧ ∀ g ∈ l'.gangs, g.stopping = false) ∧
        (∀ g, l.fault = some g → l' = { l with fault := some (if f.before g then f else g), more := min (l.more + 1) 0xFFFF })) ∧
    (∀ p n x l sl, s.placed p x n l sl → l.stopping = true → l.dumping = false →
      ∃ t, exec (.launchStop ⟨p, n⟩) s = .next t ∧ t.launchAt p n = some (Launch.settle { l with saved := [] }) ∧
        (∀ c ∈ x.live, ∀ k st, t.strandAt c k = some st → inSlot l.asid sl st = false)) ∧
    (∀ p n, ∃ t, exec (.descriptorDrop ⟨p, n⟩) s = .next t ∧ t.mem = s.mem ∧
      (∀ c ∈ s.coresOf p, ∀ e ∈ (t.core c).descs, e.2.1 ≠ n)) ∧
    (∀ p sl x l, s.part p = some x → x.slotLaunch sl = some l → x.launch l.order = some l → l.state = .sweeping → l.gangs = [] →
      let r := s.sweepSums x.live sl
      let out := exec (.countingSweep ⟨p, sl⟩) s
      (r.2.2 = false ∨ r.1 ≠ r.2.1 → launchIs out p l.order { l with sweep := none }) ∧
      (r.2.2 = true → r.1 = r.2.1 → l.sweep = none → launchIs out p l.order { l with sweep := some (r.1, r.2.1, x.period) }) ∧
      (∀ k, r.2.2 = true → r.1 = r.2.1 → l.sweep = some (r.1, r.2.1, k) → k ≠ x.period →
        launchIs out p l.order { l with state := .completing })) ∧
    (∀ p n x y l ev k h, s.part p = some x → x.launch n = some y →
      (y.state = .completing ∧ l = y ∧ ev = .launchComplete ⟨p, n⟩ ∨
        y.state = .waitdep ∧ s.deps p (recDeps y.words) = .failed ∧ l = { y with cancelled := true } ∧ ev = .launchDepResolved ⟨p, n⟩) →
      s.context p l.asid = some k → s.lnCore p l.home = some h → bitAt (s.core h).dbg.trcctl 63 = false → s.updatesDone p = true →
      (∀ m, l.slot = some m → ∀ c ∈ x.live, ∀ g ∈ (s.core c).merges, g.tags.contains ⟨p, m⟩ = false) →
      (recDone l.words = 0 ∨ l.torn = true → ∃ t, exec ev s = .next t ∧ t.launchAt p n = none ∧ t.mem = s.mem ∧
        (∃ b, List.lookup l.bslot (t.core h).board = some b ∧ b.ends.head? = some (l.seq, l.endCode, l.endedGangs, l.boardInfo))) ∧
        (∀ pa leaf s1, recDone l.words ≠ 0 → l.torn = false →
          s.resolve { homeCtx h l.asid with priv := false } Strand.fresh .va (recDone l.words) 0 kWrite 0 = .ok pa leaf s1 →
          isHost pa = false → inControl (offOf pa) = false → inControl (offOf (pa + 8)) = false → homeOf (pa + 8) = homeOf pa →
          (s1.core (homeOf pa)).cfg.fwdValid = false → CalmHome s1 (homeOf pa) leaf false →
          ∃ t, exec ev s = .next t ∧ t.launchAt p n = none ∧
          (∃ b, List.lookup l.bslot (t.core h).board = some b ∧ b.ends.head? = some (l.seq, l.endCode, l.endedGangs, l.boardInfo)) ∧
          let tot := addTotals l.carried (match l.slot with | none => [] | some m => s.numTotals x.live m)
          memRead t.mem pa 64 = ((completionWords l (s1.now h) (tot.map (·.2))).map (fun v => leBytes 8 v.toNat)).flatten)) ∧
    (∀ p x, s.part p = some x → ∃ t x', exec (.tscSync ⟨p⟩) s = .next t ∧ t.part p = some x' ∧ t.mem = s.mem ∧
      x' = { x with period := x.period + 1, wheelNext := x'.wheelNext } ∧
      (∀ c rest, x.live = c :: rest → x'.wheelNext = x.wheelNext + 2 * fld (s.core c).cfg.wheelcfg 12 0) ∧
      (∀ c, (s.core c).tscOff ≤ (t.core c).tscOff) ∧
      (∀ g c, s.timeGroom p x = some g → (x.live.map coreKey).Nodup → c ∈ x.live →
        (s.now c < s.now g → (t.core c).tscOff = (s.core c).tscOff + ((s.now g - s.now c : Nat) : Int) ∧ (t.core c).tscHold = false) ∧
        (s.now g < s.now c → (t.core c).tscOff = (s.core c).tscOff ∧ (t.core c).tscHold = true))) ∧
    (∀ p x j, s.part p = some x → x.newMap = some j →
      let n := j.live.length
      let stores : Nat → List Byte → Nat → Prop := fun off b gen =>
        let pa := j.base + off
        isHost pa = false → inControl (offOf pa) = false → (s.core (homeOf pa)).cfg.fwdValid = false → CalmHome s (homeOf pa) 0 false →
        ∃ t, exec (.mapBroadcast ⟨p⟩) s = .next t ∧ memRead t.mem pa b.length = b ∧
          t.part p = some { x with gen := gen, newMap := some { j with pos := j.pos + 1 } }
      (j.pos = 0 → stores 0 (leBytes 8 (x.gen + 1)) (x.gen + 1)) ∧
      (∀ i c, j.pos = i + 1 → j.live[i]? = some c → stores (0x40 + 4 * i)
        (leBytes 4 (b01 (s.core c).cfg.fwdValid * 2 ^ 31 + (s.core c).cfg.mask * 2 ^ 24 + c.x * 256 + c.y)) x.gen) ∧
      (j.pos = n + 1 → stores 8 (leBytes 8 n) x.gen) ∧
      (j.pos = n + 2 → exec (.mapBroadcast ⟨p⟩) s = .next (s.setPart p
        { x with newMap := some { j with pos := n + 3, sent := some x.period } })) ∧
      (j.pos = n + 3 → stores 0 (leBytes 8 (x.gen + 1)) (x.gen + 1)) ∧
      (n + 3 < j.pos → x.period ≤ j.sent.getD 0 → exec (.mapBroadcast ⟨p⟩) s = .next s) ∧
      (n + 3 < j.pos → j.sent.getD 0 < x.period → (j.live.map coreKey).Nodup →
        ∃ t x', exec (.mapBroadcast ⟨p⟩) s = .next t ∧ t.part p = some x' ∧ x'.live = j.live ∧ x'.newMap = none ∧
          (∀ i c, j.live[i]? = some c → (t.core c).cfg.ln = i)))

/-- 11 R363, R370; 12 R392; 15 R436, R437, R443 to R445, R452: invalidations and walks; the loss of a core; seams and frays; stops of the
debug module, a write of control space, and core dumps. -/
def Obligations.SupervisorAndDebugSteps : Prop :=
  ∀ s : State,
    (∀ p x q, s.part p = some x → (∀ r ∈ x.invq, r.delivered ≠ some x.period) → nextInv x.invq = some q →
      ∃ t x', exec (.invalidationDelivery ⟨p⟩) s = .next t ∧ t.part p = some x' ∧ { q with delivered := some x.period } ∈ x'.invq ∧
        t.mem = s.mem ∧ (∀ c ∈ s.ownCores p, ∀ e ∈ (t.core c).coreTlb, q.drops e = false)) ∧
    (∀ p x q k r st, s.part p = some x → x.invq = [q] → q.delivered = some k → k < x.period → s.allClear p q = true → q.ref = some r →
      s.strandAt r.core r.slot = some st → st.uid = r.uid → st.stat.qbound = false →
      exec (.invalidationSweep ⟨p⟩) s = .next ((s.setPart p { x with invq := [] }).done r.core r.slot st)) ∧
    (∀ i w, s.walks[i]? = some w → w.queued = false → w.retry = none →
      (w.marked = true → exec (.walkComplete ⟨i⟩) s = .next { s with walks := setAt s.walks i { w with marked := false } }) ∧
      (w.marked = false →
        let s0 : State := { s with walks := startQueued w.cluster (dropAt s.walks i) }
        (∀ level e u s1, s0.walk w.core w.asid w.va = .fail level e s1 → w.uid = some u →
          exec (.walkComplete ⟨i⟩) s = .next { s1 with walkFails := s1.walkFails ++ [⟨u, w.va, level, e, none⟩] }) ∧
        (∀ pa u s1, s0.walk w.core w.asid w.va = .bad pa s1 → w.uid = some u →
          exec (.walkComplete ⟨i⟩) s = .next { s1 with walkFails := s1.walkFails ++ [⟨u, w.va, 0, 0, some pa⟩] }) ∧
        (∀ e sh iset s1, s0.walk w.core w.asid w.va = .leaf e sh iset s1 →
          ∃ t, exec (.walkComplete ⟨i⟩) s = .next t ∧ t.mem = s1.mem ∧
            (⟨w.vmid, w.asid, sh, w.va.toNat % 2 ^ 56 / 2 ^ sh, e, iset,
              if lfMirror e then s1.mirrorEntry w.core (lfMidx e) else none⟩ : Tlb) ∈ (t.core w.core).coreTlb))) ∧
    (∀ i w k, s.walks[i]? = some w → w.retry = some k → k ≤ s.cycle →
      let mine := s.walks.filter (fun y => decide (y.cluster = w.cluster) && y.retry.isNone)
      let now := fun (w' : Walk) => exec (.walkRetryTimer ⟨i⟩) s = .next { s with walks := setAt s.walks i w' }
      ((mine.filter (fun y => !y.queued)).length < 32 → now { w with retry := none, queued := false }) ∧
      (32 ≤ (mine.filter (fun y => !y.queued)).length → (mine.filter (fun y => y.queued)).length < 64 →
        now { w with retry := none, queued := true }) ∧
      (32 ≤ (mine.filter (fun y => !y.queued)).length → 64 ≤ (mine.filter (fun y => y.queued)).length →
        now { w with retry := some (s.cycle + 64) })) ∧
    (∀ c, (s.core c).cfg.cls = .live ∨ (s.core c).cfg.cls = .dark →
      let pads := growPaddocks 4096 (paddockAt c.w (c.x, c.y) :: s.pkg.paddocks)
      ∃ t, exec (.coreLoss ⟨c⟩) s = .next t ∧ t.pkg.paddocks = pads ∧ t.mem = s.mem ∧
        ∀ e ∈ s.cores, e.2.cfg.cls = .live ∨ e.2.cfg.cls = .dark → inPaddock pads (coreOfKey e.1) = true →
          let d := coreOfKey e.1
          (t.core d).cfg.cls = .dead ∧ (t.core d).slots = [] ∧ (∀ m ∈ t.net, m.dst ≠ d) ∧
          ((s.core d).owned = true → ∀ x, s.part (s.partOf d) = some x →
            (∃ x', t.part (s.partOf d) = some x' ∧ x'.held = true ∧ x'.losing.isSome = true) ∧
            (∀ l ∈ x.launches, ∀ n, x.launch l.order = some l → l.slot = some n → s.slotOn d n = true →
              ∃ l', t.launchAt (s.partOf d) l.order = some l' ∧ l'.fault.isSome = true ∧ (l.fault = none → l'.stopping = true)))) ∧
    (∀ c x held, (s.core c).cfg.cls = .dead → s.part (s.partOf c) = some x → x.losing = some held → x.newMap = none →
      (∀ l ∈ x.launches, l.slot = none) →
      ∃ t x' j, exec (.coreLoss ⟨c⟩) s = .next t ∧ t.part (s.partOf c) = some x' ∧ x'.losing = none ∧ x'.newMap = some j ∧
        j.live = s.userCores (x.fields (s.partOf c)) ∧ j.pos = 0 ∧ j.held = some held) ∧
    (∀ p n x l, s.part p = some x → (x.seamTurn n).1 ≠ [] → List.lookup n x.logs = some l → l.off = false →
      (s.contextStill p x l.asid none = false → exec (.seamOpen ⟨p, n⟩) s = .next (s.stopContext x l.asid none)) ∧
      (s.contextStill p x l.asid none = true → l.snapsz = 0 →
        ∃ t x' l' m, exec (.seamOpen ⟨p, n⟩) s = .next t ∧ t.part p = some x' ∧ List.lookup n x'.logs = some l' ∧ l'.cur = nextSeam l.cur ∧
          l'.lost = false ∧ l'.seams.getLast? = some m ∧ m.n = nextSeam l.cur ∧ m.frayed = false ∧ x'.seamReqs = (x.seamTurn n).2)) ∧
    (∀ i m p asid n l, Arrives s i m (.fray p asid) → (s.receive i m).logSlotOf p asid = some (n, l) →
      exec (.frayNotice ⟨i⟩) s = .next ((s.receive i m).modLog p n (fun l =>
        { l with seams := l.seams.map (fun y => if y.n = l.cur then { y with frayed := true } else y) }))) ∧
    (∀ c, ∃ t, exec (.debugStop ⟨c⟩) s = .next t ∧ (t.core c).dbg.stop = true ∧ t.mem = s.mem) ∧
    (∀ c, (s.core c).dbg.stop = true → (s.core c).dbg.stopped = false →
      ((s.core c).atBoundary = true → ∃ t, exec (.debugStopComplete ⟨c⟩) s = .next t ∧ (t.core c).dbg.stopped = true) ∧
      ((s.core c).atBoundary = false → exec (.debugStopComplete ⟨c⟩) s = .next s)) ∧
    (∀ c, (s.core c).dbg.stop = true → ∃ t, exec (.debugResume ⟨c⟩) s = .next t ∧ (t.core c).dbg.stop = false ∧
      (t.core c).dbg.stopped = false ∧ (∀ e ∈ (s.core c).notify, ∃ y ∈ t.net, y.dst = coreOfKey e.1 ∧ y.body = .resumeNotice e.2)) ∧
    (∀ c v, exec (.controlRegisterWrite ⟨c, 0x18, v⟩) s = .next (s.modCore c (fun k =>
        { k with cfg := { k.cfg with fwdValid := bitAt v 63, heir := v.toNat % 2 ^ 16 } })) ∧
      exec (.controlRegisterWrite ⟨c, 0x28, v⟩) s = .next (s.modCore c (fun k =>
        { k with cfg := { k.cfg with spillcfg := v &&& 0x3FFF1FFF } })) ∧
      exec (.controlRegisterWrite ⟨c, 0x00, v⟩) s = .next s ∧
      (∀ i < 64, v = 0 → ∃ t, exec (.controlRegisterWrite ⟨c, 0x3000 + 8 * i, v⟩) s = .next t ∧ tblGet 0 (t.core c).counters i = 0)) ∧
    (∀ p x h l, s.part p = some x → s.headCore p = some h → x.dumpQueue.filterMap x.launch = [l] →
      (∀ n, l.slot = some n → s.coatMoving p n = false ∧
        ∀ c ∈ x.live, (s.core c).allStopped (inSlot l.asid n) (recInSlot l.asid n) = true) →
      let ctx := homeCtx h ((s.core h).cfg.dumpctl.toNat % 2 ^ 16)
      (∀ s1, s.dumpSlot ctx (s.core h).cfg.dumpva = .full s1 →
        exec (.dumpWrite ⟨p⟩) s = .next ((s1.modPart p (fun x => { x with dumpSkips := x.dumpSkips + 1 })).undump p [l])) ∧
      (∀ va size s1 s2, s.dumpSlot ctx (s.core h).cfg.dumpva = .slot va size s1 → s1.writeDump p x l.asid [l] [] ctx va size = some s2 →
        exec (.dumpWrite ⟨p⟩) s = .next (s2.undump p [l])))

/-- 13 R413; 14 R423 to R431; 16 R453, R456, R458: what the host and the package do to the device: doorbells, window accesses, boot,
firmware, attestation, the lifetime record, power, checkpoints, links, and the fabric capability. -/
def Obligations.HostAndPackageSteps : Prop :=
  ∀ s : State,
    (∀ n words d x, List.lookup n s.pkg.doorbells = some d → s.part d.part = some x →
      (x.vf = d.vf → exec (.doorbellLaunch ⟨n, words⟩) s = .next ((s.enqueueLaunch d.part d.asid words).2.setDoorbell n
        { d with status := doorStatus (s.enqueueLaunch d.part d.asid words).1 })) ∧
      (∀ v, x.vf ≠ d.vf → List.lookup d.vf s.pkg.vfs = some v →
        ∃ t v' d', exec (.doorbellLaunch ⟨n, words⟩) s = .next t ∧ t.parts = s.parts ∧ List.lookup d.vf t.pkg.vfs = some v' ∧
          List.lookup n t.pkg.doorbells = some d' ∧
          (v.heldRecs.length < 64 → v'.heldRecs = v.heldRecs ++ [(n, words)] ∧ d'.status = 0) ∧
          (64 ≤ v.heldRecs.length → v' = v ∧ d'.status = 0x13))) ∧
    (∀ link off size, off < hostBar0 → s.hostOpen link off size = false → exec (.hostRead ⟨link, off, size⟩) s = .next s) ∧
    (∀ link off size, hostCaps ≤ off → s.linkUp link = true →
      exec (.hostRead ⟨link, off, size⟩) s = .next (s.hostGets (s.capRead (off - hostCaps) size))) ∧
    (∀ id i, 1 ≤ id → id ≤ 6 → i < 4 → s.capRead (65536 * id + i) 1 = [(leBytes 4
      ((if id < 6 then (Config.capOffset (id + 1)).toNat else 0) * 65536 + (Config.capVersion id).toNat * 256 + id)).getD i 0]) ∧
    (∀ link off size, hostBar0 ≤ off → off < hostCaps → s.linkUp link = true →
      exec (.hostRead ⟨link, off, size⟩) s = .next (s.hostGets (s.doorRead (off - hostBar0) size))) ∧
    (∀ n d, List.lookup n s.pkg.doorbells = some d → s.doorRead (4096 * n + 0x40) 8 = leBytes 8 d.status) ∧
    (∀ link field b0 b1 q, s.linkUp link = true → field < 80 → List.lookup field s.pkg.power = some q →
      ∃ t, exec (.hostWrite ⟨link, hostCaps + 65536 * 3 + 4 + 2 * field, [b0, b1]⟩) s = .next t ∧
        List.lookup field t.pkg.power = some { q with cap := b0.toNat + 256 * b1.toNat }) ∧
    (∀ link off size c asid p base, off < hostBar0 → s.hostOpen link off size = true → s.windowCtx link = some (c, asid, p, base) →
      let j : HostJob := ⟨link, c, asid, p, base + off, .read size []⟩
      let s' := s.setJobs [j]
      let k := min size (16 - (base + off) % 16)
      (s.pkg.hostJobs ≠ [] → exec (.hostRead ⟨link, off, size⟩) s = .next (s.setJobs (s.pkg.hostJobs ++ [j]))) ∧
      (s.pkg.hostJobs = [] → s'.hostPa j kRead = .wait → exec (.hostRead ⟨link, off, size⟩) s = .next s') ∧
      (∀ s1, s.pkg.hostJobs = [] → s'.hostPa j kRead = .bad s1 → exec (.hostRead ⟨link, off, size⟩) s = .next (s1.hostUr.setJobs [])) ∧
      (∀ pa leaf s1, s.pkg.hostJobs = [] → s'.hostPa j kRead = .ok pa leaf s1 → s1.landsAt 9 pa = some pa → isHost pa = false →
        inControl (offOf pa) = false → s1.ecc = [] → s1.soft = [] → (s1.core (homeOf pa)).merges = [] →
        exec (.hostRead ⟨link, off, size⟩) s = .next (if k = size then (s1.hostGets (memRead s1.mem pa k)).setJobs []
          else s1.setJobs [{ j with va := base + off + k, op := .read (size - k) (memRead s1.mem pa k) }]))) ∧
    (∀ link off data c asid p base pa leaf s1, off < hostBar0 → s.hostOpen link off data.length = true →
      s.windowCtx link = some (c, asid, p, base) → s.pkg.hostJobs = [] →
      let j : HostJob := ⟨link, c, asid, p, base + off, .write data⟩
      let k := min data.length (16 - (base + off) % 16)
      (s.setJobs [j]).hostPa j kWrite = .ok pa leaf s1 → CalmHome s1 (homeOf pa) leaf false →
      lfNolog leaf = true ∨ s1.logSlotOf (s1.partOf (homeOf pa)) asid = none →
      ∃ t, exec (.hostWrite ⟨link, off, data⟩) s = .next t ∧ memRead t.mem pa k = data.take k ∧
        (∀ a, a < pa ∨ pa + k ≤ a → memGet t.mem a = memGet s1.mem a) ∧ (k = data.length → t.pkg.hostReply = []) ∧
        t.pkg.hostJobs = if k = data.length then [] else [{ j with va := base + off + k, op := .write (data.drop k) }]) ∧
    (∀ link off op size a b c asid p base pa leaf s1, s.hostOpen link off size = true → s.windowCtx link = some (c, asid, p, base) →
      s.pkg.hostJobs = [] → size = 4 ∨ size = 8 → op ≤ 2 → (base + off) % size = 0 →
      let j : HostJob := ⟨link, c, asid, p, base + off, .atomic op size a b⟩
      (s.setJobs [j]).hostPa j kRead = .ok pa leaf s1 →
      (lfSysatom leaf = false → exec (.hostAtomic ⟨link, off, op, size, a, b⟩) s = .next
        (((s1.modPart p (fun y => { y with hostRefused := y.hostRefused + 1 })).hostGets []).setJobs [])) ∧
      (∀ pa leaf' s2, lfSysatom leaf = true → s1.hostPa j kAtomic = .ok pa leaf' s2 →
        let r : MemReq := { waitFor .store with pa := pa, va := BitVec.ofNat 64 (base + off), leaf := leaf',
                                                op := .amo (if op = 0 then .swap else if op = 1 then .cas else .add) size a b }
        (∀ v f w q s3, s2.serve (homeOf pa) r (hostWriter asid leaf') = some (.value v f w q, s3) →
          exec (.hostAtomic ⟨link, off, op, size, a, b⟩) s = .next ((s3.hostGets (leBytes size v.toNat)).setJobs [])))) ∧
    (∀ o : EvBoot, o.wafer < 64 → (∀ e ∈ s.cores, (coreOfKey e.1).w ≠ o.wafer) → wheelPeriod (bootPads o) (wholeWafer o.wafer) ≤ 4096 →
      ∃ t q, exec (.boot o) s = .next t ∧ t.pkg.stage = .rom ∧ t.part (16 * o.wafer) = some q ∧ q.vmid = 0 ∧
        (∀ x < 240, ∀ y < 256, (t.core ⟨o.wafer, x, y⟩).cfg.cls = bootClass o (bootPads o) ⟨o.wafer, x, y⟩ ∧
          (t.core ⟨o.wafer, x, y⟩).slots = [])) ∧
    (∀ image, s.pkg.stage ≠ .off →
      (Config.imageSigned image = true → ∃ t, exec (.firmwareLoad ⟨image⟩) s = .next t ∧ t.pkg.stage = .running ∧ t.pkg.image = image ∧
        t.pkg.haltedFields = [] ∧ t.mem = s.mem ∧ (∀ c, (t.core c).cfg.halted = false)) ∧
      (Config.imageSigned image = false → exec (.firmwareLoad ⟨image⟩) s = .next { s with pkg := { s.pkg with stage := .rejected } })) ∧
    (∀ nonce, nonce.length = 32 → ∃ a, exec (.attestation ⟨nonce⟩) s = .next { s with pkg := { s.pkg with attest := some a } } ∧
      a.identity = Config.waferIdentity ∧ a.digest = Config.sha256 s.pkg.image ∧ a.liveCount = s.liveTotal ∧ a.nonce = nonce ∧
      a.signature = Config.attestSignature (a.identity ++ a.digest ++ leBytes 4 a.liveCount ++ nonce)) ∧
    exec (.lifetimeWrite ⟨⟩) s = .next { s with pkg := { s.pkg with flash := s.pkg.lifetime } } ∧
    exec (.orderlyShutdown ⟨⟩) s = .next { s with pkg := { s.pkg with flash := s.pkg.lifetime, stage := .off } } ∧
    (∀ f watts q, List.lookup f s.pkg.power = some q →
      (q.cap < watts → 4 < q.step → ∃ t, exec (.powerCheck ⟨f, watts⟩) s = .next t ∧
        List.lookup f t.pkg.power = some { q.setStep s.cycle (q.step - 1) with throttles := q.throttles + 1 } ∧
        t.pkg.lifetime.throttles = s.pkg.lifetime.throttles + 1) ∧
      (q.cap < watts → q.step ≤ 4 → exec (.powerCheck ⟨f, watts⟩) s = .next s) ∧
      (10 * watts < 9 * q.cap → q.step < 16 → ∃ t, exec (.powerCheck ⟨f, watts⟩) s = .next t ∧
        List.lookup f t.pkg.power = some (q.setStep s.cycle (q.step + 1)))) ∧
    (∀ (q : Power) cycle step, (q.setStep cycle step).step = step ∧ (q.setStep cycle step).cap = q.cap ∧
      (q.setStep cycle step).phase + ((cycle * step / 16 : Nat) : Int) = q.phase + ((cycle * q.step / 16 : Nat) : Int)) ∧
    (∀ p links target s1, (s.part p).isSome = true → s.shelfLinks links = true →
      (∀ e, s.holdPass p = (true, e, s1) → exec (.checkpointCommand ⟨p, links, target⟩) s = .next s1) ∧
      (s.holdPass p = (false, 0, s1) → ∃ t k, exec (.checkpointCommand ⟨p, links, target⟩) s = .next t ∧ k ∈ t.pkg.checkpoints ∧
        k.target = target ∧ k.part = p ∧ t.mem = (s1.settle p).mem ∧
        k.cells = (s1.settle p).mem.filter (fun e => (s1.settle p).inDramOf p e.1) ∧
        k.feEmpty = (s1.settle p).feEmpty.filter (fun g => (s1.settle p).inDramOf p (16 * g)))) ∧
    (∀ p target k s1, (s.part p).isSome = true →
      s.pkg.checkpoints.find? (fun y => decide (y.target = target) && decide (y.part = p)) = some k → s.holdPass p = (false, 0, s1) →
      Memory.wf (s1.settle p).mem = true → Memory.wf k.cells = true → (∀ e ∈ k.cells, (s1.settle p).inDramOf p e.1 = true) →
      ∃ t, exec (.checkpointRestore ⟨p, target⟩) s = .next t ∧
        (∀ a, memGet t.mem a = if (s1.settle p).inDramOf p a then memGet k.cells a else memGet (s1.settle p).mem a)) ∧
    (∀ i, ∃ t, exec (.linkCrcRetry ⟨i⟩) s = .next t ∧ t.mem = s.mem ∧ t.net = s.net ∧
      t.pkg.lifetime.crcRetries = s.pkg.lifetime.crcRetries + 1) ∧
    (∀ w < 64, ∃ t, exec (.linkFailure ⟨w⟩) s = .next t ∧ w ∈ t.pkg.dezalDown ∧
      (∀ m ∈ t.net, m.src.w = m.dst.w ∨ (m.src.w ≠ w ∧ m.dst.w ≠ w))) ∧
    (∀ i m ref r, s.net[i]? = some m → m.src.w ≠ m.dst.w → m.body = .request ref r →
      (m.fwd < 16 → exec (.linkFailure ⟨64 + i⟩) s = .next { s with net := dropAt s.net i ++ [{ m with fwd := m.fwd + 16 }] }) ∧
      (16 ≤ m.fwd → ∃ t, exec (.linkFailure ⟨64 + i⟩) s = .next t ∧ t.mem = s.mem ∧
        t.newest ref.core ref.core true (.reply ref r .refused))) ∧
    (∀ i, ∃ t, exec (.abagalLinkDown ⟨i⟩) s = .next t ∧ i ∈ t.pkg.linksDown ∧ t.mem = s.mem ∧ t.cores = s.cores ∧
      ∀ j ∈ t.pkg.hostJobs, j.link ≠ i) ∧
    (∀ (o : EvFabric) x, s.part o.p = some x → ∃ t v, exec (.fabricCapabilityCommand o) s = .next t ∧
      t.pkg.wafers = o.wafers.map (· % 64) ∧ List.lookup o.vf t.pkg.vfs = some v ∧ v.fabric = o.permit ∧
      (∀ c ∈ s.ownCores o.p, (t.core c).cfg.fabslots = BitVec.ofNat 64 (o.join % 2 ^ 21) ∧
        bitAt (t.core c).cfg.fabcfg 15 = o.grp ∧ (x.vf = o.vf → bitAt (t.core c).cfg.fabcfg 14 = o.permit)))
/-- 02 R47, R51 to R55, R62 to R67: some instructions written as words from the spec's encodings, with prefixes in more than one
order, and chains that R61 refuses, each with its reason. -/
def Obligations.SomeWordsDecoded : Prop :=
  decodeHalves [0x014C] = .ok (.add ⟨.none, 1, 2, 3⟩, 1) ∧
  decodeHalves [0xF680, 0x014C, 0xC800] = .ok (.add ⟨.none, 9, 2, 11⟩, 2) ∧
  decodeHalves [0x295F] = .ok (.addi ⟨.none, 1, 2, -1⟩, 1) ∧
  decodeHalves [0xF004, 0x5300] = .ok (.movi ⟨.none, 3, 1024⟩, 2) ∧
  decodeHalves [0xFC95, 0xF401, 0x64A3] = .ok (.ld ⟨.p0, .stay, true, .fe, .w, 4, 5, 3⟩, 3) ∧
  decodeHalves [0xF401, 0xFC95, 0x64A3] = .ok (.ld ⟨.p0, .stay, true, .fe, .w, 4, 5, 3⟩, 3) ∧
  decodeHalves [0x91FE] = .ok (.br ⟨.none, .p0, -2⟩, 1) ∧
  decodeHalves [0xC945] = .ok (.trap ⟨.none, 5⟩, 1) ∧
  decodeHalves [0xF889, 0x014C] = .ok (.vadd ⟨.none, some 0, some .i32, 1, 2, 3⟩, 2) ∧
  decodeHalves [0xF8C0, 0x004D] = .ok (.rpub ⟨.none, 2, 3⟩, 2) ∧
  decodeHalves [0xF900, 0x0100] = .ok (.barc ⟨.none, 1⟩, 2) ∧
  decodeHalves [0xF940, 0x0258] = .ok (.mfsp ⟨.none, 2, 0x58⟩, 2) ∧
  (decodeHalves [0xF000, 0xF000, 0xF000, 0xF000, 0xF000] = .error .tooManyPrefixes ∧
    decodeHalves [0xF400, 0xF400, 0x014C] = .error .repeatedPrefix ∧
    decodeHalves [0xF980, 0x014C] = .error .pageUnassigned ∧ decodeHalves [0xF800, 0x014C] = .error .pageUnassigned ∧
    decodeHalves [0xF8C0, 0xE800] = .error .opUnassigned ∧ decodeHalves [0xFC70, 0x64A3] = .error .qualReserved ∧
    decodeHalves [0xFC10, 0x014C] = .error .qualNotAccepted ∧ decodeHalves [0xF001, 0x014C] = .error .ximmNotAccepted ∧
    decodeHalves [0xF404, 0x014C] = .error .xregNotAccepted ∧ decodeHalves [0xF8C1, 0x004D] = .error .extNotValid ∧
    decodeHalves [0xF900, 0x0120] = .error .fieldNotZero ∧ decodeHalves [0xF940, 0x02FF] = .error .specialUnknown)

/-- 02 R46 to R69: the words of a well-formed instruction, whatever follows them in memory, decode to that instruction and to its
length, with every operand; the members of a pair that a descriptor or a command word tells apart have one word (log 6). Only the
steps that no strand issues have no words. What decodes is well formed and takes one to five halfwords. -/
def Obligations.DecodeOfEncode : Prop :=
  (∀ i : Instr, i.wf = true → ∀ hs, encode i = some hs →
    1 ≤ hs.length ∧ hs.length ≤ 5 ∧ (∀ h ∈ hs, h < 2 ^ 16) ∧
    ∀ rest : List Nat, decodeHalves (hs ++ rest) = .ok (firstOf i, hs.length)) ∧
  (∀ i : Instr, encode i = none ↔ guardOf i = none) ∧
  (∀ (hs : List Nat) (i : Instr) (k : Nat), decodeHalves hs = .ok (i, k) → i.wf = true ∧ firstOf i = i ∧ 1 ≤ k ∧ k ≤ 5 ∧ k ≤ hs.length)

/-- 02 R57, R60, R61; 05 R161; 06 R190; log 2: the next entry of the agenda runs as it stands. Where a strand has its turn with a
fresh instruction, the halfwords at its PC, up to and with the first that is no prefix, are its chain; a chain that decodes to i is
issued as exec of i, with the chain kept in the strand and the instruction counted; one that the decoder refuses takes ILLEGAL with
the reason and no instruction runs. -/
def Obligations.StepRunsDecodedInstruction : Prop :=
  (∀ (s : State) (i : Instr) (t : List Instr), s.agenda = i :: t → step s = exec i { s with agenda := t }) ∧
  (∀ (s s' : State) (c : CoreId) (n : Nat) (st : Strand), AtIssue s c n st s' →
    ∀ (hs : List Nat) (s'' : State), State.fetch 5 s' c n st [] = .ok hs s'' →
      let st' : Strand := { st with chain := hs }
      st.brkskip = true ∨ (s''.core c).breakpoint st' = none →
      (∀ i k, decodeHalves hs = .ok (i, k) → step s = exec i (((s''.markTurn c n).putStrand c n (st'.issued i)).perf c 0x02 1)) ∧
      (∀ e, decodeHalves hs = .error e →
        step s = .next ((s''.markTurn c n).takeFault c n st' (fIllegal e.code st.pc (chainInfo hs))))) ∧
  (∀ (s : State) (c : CoreId) (n : Nat) (st : Strand) (hs : List Nat), 1 ≤ hs.length → hs.length ≤ 5 →
    (∀ j < hs.length, ∃ pa leaf, FetchesAt s c n st (st.pc + BitVec.ofNat 64 (2 * j)) (hs.getD j 0) pa leaf) →
    (∀ j, j + 1 < hs.length → isPrefixWord (hs.getD j 0) = true) →
    (hs.length < 5 → isPrefixWord (hs.getD (hs.length - 1) 0) = false) →
    State.fetch 5 s c n st [] = .ok hs s)

/-- The values the spec's Reset columns and rules give: 07 R214, R227, R228, R231, R233, R234; 08 R252; 11 R365; 12 R381; 14 R413;
15 R444, R448, R451; 16 R453; 07 R219; 09 R276, R281; 10 R346. Where a column says Boot, and for memory, the values are the model's
(logs 1, 4, 5) and are not stated here. -/
def Obligations.ResetValuesOfTheDevice : Prop :=
  ∀ c : CoreId,
    let k := State.reset.core c
    (∀ i < 1024, State.reset.ctlWord c (0x4000 + 8 * i) = BitVec.allOnes 64) ∧
    (∀ pc : Word, tblGet 1 k.predictor (predIndex pc) = 1 ∧ k.predicts pc = false) ∧
    State.reset.ctlWord c 0x10 = 0x0000FFFFFFFFFFFF ∧ State.reset.ctlWord c 0x18 = 0 ∧ State.reset.ctlWord c 0x20 = 16 ∧
    State.reset.ctlWord c 0x28 = 0 ∧ ((State.reset.ctlWord c 0x08).toNat / 2 ^ 16 = 1) ∧
    (∀ i < 64, State.reset.ctlWord c (0x200 + 8 * i) = 0) ∧ (∀ i < 128, State.reset.ctlWord c (0x400 + 8 * i) = 0) ∧
    (∀ i < 32, State.reset.ctlWord c (0x800 + 8 * i) = 0) ∧ (∀ i < 64, State.reset.ctlWord c (0x3000 + 8 * i) = 0) ∧
    (∀ l < 8, State.reset.ctlWord c (0x900 + 32 * l) = 0 ∧ State.reset.ctlWord c (0x908 + 32 * l) = 0 ∧
      State.reset.ctlWord c (0x910 + 32 * l) = 1) ∧
    (∀ i < 32, State.reset.ctlWord c (0xA00 + 8 * i) = 0) ∧
    k.vshare = 0x88 ∧ k.vctx = [] ∧ k.cfg.mirtab = 0 ∧ (∀ i : Fin 8, k.cfg.iset[i] = 0) ∧ k.cfg.dumpctl = 0 ∧ k.cfg.dumpva = 0 ∧
    k.cfg.fabexp = 0 ∧ k.cfg.fabslots = 0 ∧ k.cfg.fabcfg &&& 0xFFFFFFFFFFFFFFC0 = 0 ∧ k.cfg.partcfg &&& 0x00004000FFFFFFFF = 0 ∧
    (∀ i : Fin 8, k.dbg.ctr[i] = (0, 0)) ∧ k.slots = [] ∧ k.crews = []

/-- 00 R4: reset memory is in its canonical form (log 1). -/
def Obligations.ResetMemoryIsCanonical : Prop := Memory.wf State.reset.mem = true

/-- 00 R4: every step, from any state, keeps memory in its canonical form: the addresses rise strictly and no cell lists the byte
that an unlisted address reads as (log 1); so two memories that read alike are one list of cells. -/
def Obligations.StepKeepsMemoryCanonical : Prop :=
  (∀ s : State, Memory.wf s.mem = true → ∀ s' : State, step s = .next s' → Memory.wf s'.mem = true) ∧
  (∀ m m' : List Host.Cell, Memory.wf m = true → Memory.wf m' = true → (∀ a, memGet m a = memGet m' a) → m = m')

/-- 01 R32; 05 R161, R163: what `wrote`, the state of a result in most statements, leaves as it was: memory, full-empty bits, the
network, partitions and the package, every other core, everything of the core but the strand's slot, and of the strand everything but
register d with its pending bit, PC, the loop levels, the turn, and what the instruction under way had read. Outside loops the strand goes on after its chain. -/
def Obligations.FrameOfAResult : Prop :=
  ∀ (s : State) (c : CoreId) (n : Nat) (st : Strand) (d : Reg) (v : Word),
    let t := s.wrote c n st d v
    t = { s with cores := t.cores } ∧
    (∀ c' : CoreId, coreKey c' ≠ coreKey c → t.core c' = s.core c') ∧
    t.core c = { s.core c with slots := (t.core c).slots } ∧
    (∀ m ≠ n, t.strandAt c m = s.strandAt c m) ∧
    ∃ x : Strand, t.strandAt c n = some x ∧
      x = { st with g := x.g, pend := x.pend, pc := x.pc, ldep := x.ldep, loops := x.loops, run := .ready, deadline := none,
                    nest := none, rbuf := [], bulk := none } ∧
      x.reg d = v ∧ x.pending d = .clear ∧ (∀ r ≠ d, x.reg r = st.reg r ∧ x.pending r = st.pending r) ∧
      (st.ldep = 0 → x.pc = st.pc + BitVec.ofNat 64 (2 * st.chain.length) ∧ x.loops = st.loops ∧ x.ldep = 0)
end

