-- ==== Sys2Proof/Laws/Issue.lean ====
section
/-! SUPPORT. What issuing an instruction comes to when its strand is ready: the gate lets it go with the registers' values. -/
namespace Sys2Proof.Machine
open Sys2Proof

theorem Strand.isLoad_of_clear {st : Strand} {r : Reg} (h : st.pending r = .clear) : st.isLoad r = false := by
  simp [Strand.isLoad, h]

theorem Strand.isHandle_of_clear {st : Strand} {r : Reg} (h : st.pending r = .clear) : st.isHandle r = false := by
  simp [Strand.isHandle, Pend.isHandle, h]

theorem Strand.isPort_of_noQueue {st : Strand} (r : Reg) (h : st.stat.qbound = false) : st.isPort r = false := by
  simp [Strand.isPort, h]

/-- With every register final and no bound queue, the gate gives the registers' values and no pop. -/
theorem State.gate_final (s : State) (c : CoreId) (n : Nat) (st : Strand) (srcs hard : List Reg) (dst : Option Reg)
    (hs : ∀ r ∈ srcs, st.pending r = .clear) (hh : ∀ r ∈ hard, st.pending r = .clear)
    (hd : ∀ r ∈ dst, st.pending r = .clear) (q : st.stat.qbound = false) :
    s.gate c n st srcs hard dst = .go st (srcs.map st.reg) (fun s => s) := by
  have h1 : ∀ r ∈ srcs, st.isLoad r = false := fun r hr => Strand.isLoad_of_clear (hs r hr)
  have h2 : ∀ r ∈ hard, st.isHandle r = false := fun r hr => Strand.isHandle_of_clear (hh r hr)
  have ha : hard.any st.isHandle = false := by simpa only [List.any_eq_false, Bool.not_eq_true] using h2
  have hf : hard.find? st.isHandle = none := by simpa only [List.find?_eq_none, Bool.not_eq_true] using h2
  have hl : ∀ l : List Reg, (∀ r ∈ l, st.pending r = .clear) → (srcs ++ l).any st.isLoad = false := by
    intro l hl
    simp only [List.any_eq_false, List.mem_append, Bool.not_eq_true]
    rintro r (hr | hr)
    · exact h1 r hr
    · exact Strand.isLoad_of_clear (hl r hr)
  cases dst with
  | none =>
    have := hl [] (by simp)
    simp only [State.gate, this, ha, Bool.false_eq_true, if_false]
    rw [show hard.find? (fun r => st.isHandle r) = none from hf]
    simp [q]
  | some d =>
    have := hl [d] (by simpa using hd)
    simp only [State.gate, this, ha, Bool.false_eq_true, if_false]
    rw [show hard.find? (fun r => st.isHandle r) = none from hf]
    simp [q]

/-- Issue of an instruction that needs no privilege. -/
theorem State.issue_ready {s : State} {c : CoreId} {n : Nat} {st : Strand} {g : Guard} {rs : List Reg}
    (h : Ready s c n st g rs) (srcs hard : List Reg) (dst : Option Reg) (k : Body')
    (hs : srcs ⊆ rs) (hh : hard ⊆ rs) (hd : ∀ r ∈ dst, r ∈ rs) :
    s.issue g none srcs hard dst k = k c n st (srcs.map st.reg) (fun s => s) s := by
  have hg := s.gate_final c n st srcs hard dst (fun r hr => h.final r (hs hr)) (fun r hr => h.final r (hh hr))
    (fun r hr => h.final r (hd r hr)) h.noQueue
  simp [State.issue, h.turn, h.guard, hg]

/-- Issue of a privileged instruction by a privileged strand. -/
theorem State.issue_privileged {s : State} {c : CoreId} {n : Nat} {st : Strand} {g : Guard} {rs : List Reg} {info : Word}
    (h : Ready s c n st g rs) (p : st.stat.priv = true) (srcs hard : List Reg) (dst : Option Reg) (k : Body')
    (hs : srcs ⊆ rs) (hh : hard ⊆ rs) (hd : ∀ r ∈ dst, r ∈ rs) :
    s.issue g (some info) srcs hard dst k = k c n st (srcs.map st.reg) (fun s => s) s := by
  have hg := s.gate_final c n st srcs hard dst (fun r hr => h.final r (hs hr)) (fun r hr => h.final r (hh hr))
    (fun r hr => h.final r (hd r hr)) h.noQueue
  simp [State.issue, h.turn, h.guard, hg, p]

/-- A result written to a register that is no port. -/
theorem State.writeBack_plain (s : State) (c : CoreId) (n : Nat) (st : Strand) (d : Reg) (v : Word)
    (q : st.stat.qbound = false) : s.writeBack c n st (some d) v = s.wrote c n st d v := by
  simp [State.writeBack, Strand.isPort_of_noQueue d q, State.wrote, State.done]

@[simp] theorem Flags.or_none (f : Flags) : f.or Flags.none = f := by
  cases f; simp [Flags.or, Flags.none]
@[simp] theorem Strand.raise_none (st : Strand) : st.raise Flags.none = st := by
  simp [Strand.raise, Fcw.raise]
@[simp] theorem State.fpEvents_none (s : State) (c : CoreId) (l : Option Nat) : s.fpEvents c l Flags.none 0 = s := by
  simp [State.fpEvents]

/-! ### Releases -/

/-- Write queues that hold no group of a choice stand as they are. -/
theorem State.drainWhere_none (s : State) (f : Merge → Bool) (cs : List CoreId) (h : ∀ d, (s.core d).merges.any f = false) :
    s.drainWhere f cs = s := by
  unfold State.drainWhere overCores
  induction cs with
  | nil => rfl
  | cons d t ih => rw [List.foldl_cons, h d]; exact ih

/-- A release with no reduction of its strand in any write queue drains nothing. -/
theorem State.drainQueue_none {s : State} {st : Strand} (c : CoreId) (h : s.noReds st) : s.drainQueue c st = s := by
  unfold State.drainQueue
  split
  · exact s.drainWhere_none _ _ h
  · rfl

/-! ### Register operations -/

/-- A register operation that computes a value writes it, with its flags. -/
theorem State.regOp_value {s : State} {c : CoreId} {n : Nat} {st : Strand} {g : Guard} {rs : List Reg} (h : Ready s c n st g rs)
    (srcs : List Reg) (d : Reg) (f : Strand → List Word → RegEff) (v : Word) (fl : Flags) (nars : Nat) (st' : Strand)
    (hs : srcs ⊆ rs) (hd : d ∈ rs) (hf : f st (srcs.map st.reg) = .done st' (some v) fl nars) (q : st'.stat.qbound = false) :
    s.regOp g srcs (some d) f = (s.fpEvents c st'.lslot fl nars).wrote c n (st'.raise fl) d v := by
  unfold State.regOp
  rw [State.issue_ready h srcs srcs (some d) _ hs hs (by simpa using hd)]
  simp only [hf]
  rw [State.writeBack_plain]
  simpa [Strand.raise] using q

/-- A register operation with no general register as its destination. -/
theorem State.regOp_noDest {s : State} {c : CoreId} {n : Nat} {st : Strand} {g : Guard} {rs : List Reg} (h : Ready s c n st g rs)
    (srcs : List Reg) (f : Strand → List Word → RegEff) (fl : Flags) (nars : Nat) (st' : Strand)
    (hs : srcs ⊆ rs) (hf : f st (srcs.map st.reg) = .done st' none fl nars) :
    s.regOp g srcs none f = (s.fpEvents c st'.lslot fl nars).done c n (st'.raise fl) := by
  unfold State.regOp
  rw [State.issue_ready h srcs srcs none _ hs hs (by simp)]
  simp only [hf]
  rfl

/-- A register operation that faults. -/
theorem State.regOp_fault {s : State} {c : CoreId} {n : Nat} {st : Strand} {g : Guard} {rs : List Reg} (h : Ready s c n st g rs)
    (srcs : List Reg) (dst : Option Reg) (f : Strand → List Word → RegEff) (x : FaultInfo)
    (hs : srcs ⊆ rs) (hd : ∀ r ∈ dst, r ∈ rs) (hf : f st (srcs.map st.reg) = .fault x) :
    s.regOp g srcs dst f = s.takeFault c n st x := by
  unfold State.regOp
  rw [State.issue_ready h srcs srcs dst _ hs hs hd]
  simp only [hf]

end Sys2Proof.Machine
end

