-- ==== Sys2Proof/Laws/Memory.lean ====
section
/-! SUPPORT. Memory: every operation keeps the canonical form (log 1), a read after a write gives what was written, and a write leaves
every other address alone. -/
namespace Sys2Proof.Machine
open Sys2Proof

/-! ### The canonical form -/

theorem memWfFrom_mono {m : List Host.Cell} {lo hi : Nat} (h : lo ≤ hi) (w : memWfFrom hi m = true) : memWfFrom lo m = true := by
  cases m with
  | nil => rfl
  | cons c t =>
    obtain ⟨i, b⟩ := c
    simp only [memWfFrom, Bool.and_eq_true, decide_eq_true_eq] at w ⊢
    exact ⟨⟨by omega, w.1.2⟩, w.2⟩

theorem memWfFrom_memSet {m : List Host.Cell} {lo : Nat} (a : Nat) (b : Byte) (h : lo ≤ a) (w : memWfFrom lo m = true) :
    memWfFrom lo (memSet m a b) = true := by
  induction m generalizing lo with
  | nil => by_cases e : b = unwritten <;> simp [memSet, e, memWfFrom, h]
  | cons c t ih =>
    obtain ⟨i, x⟩ := c
    simp only [memWfFrom, Bool.and_eq_true, decide_eq_true_eq] at w
    obtain ⟨⟨w1, w2⟩, w3⟩ := w
    simp only [memSet]
    split
    · next l =>
      split
      · simp [memWfFrom, w1, w2, w3]
      · next e =>
        simp only [memWfFrom, Bool.and_eq_true, decide_eq_true_eq, bne_iff_ne]
        exact ⟨⟨h, e⟩, ⟨by omega, by simpa using w2⟩, w3⟩
    · next l =>
      split
      · next e =>
        split
        · exact memWfFrom_mono (by omega) w3
        · next u =>
          subst e
          simp only [memWfFrom, Bool.and_eq_true, decide_eq_true_eq, bne_iff_ne]
          exact ⟨⟨h, u⟩, w3⟩
      · next e =>
        simp only [memWfFrom, Bool.and_eq_true, decide_eq_true_eq]
        exact ⟨⟨w1, w2⟩, ih (by omega) w3⟩

theorem memWfFrom_filter {m : List Host.Cell} {lo : Nat} (p : Host.Cell → Bool) (w : memWfFrom lo m = true) :
    memWfFrom lo (m.filter p) = true := by
  induction m generalizing lo with
  | nil => rfl
  | cons c t ih =>
    obtain ⟨i, x⟩ := c
    simp only [memWfFrom, Bool.and_eq_true, decide_eq_true_eq] at w
    obtain ⟨⟨w1, w2⟩, w3⟩ := w
    simp only [List.filter_cons]
    split
    · simp only [memWfFrom, Bool.and_eq_true, decide_eq_true_eq]
      exact ⟨⟨w1, w2⟩, ih w3⟩
    · exact memWfFrom_mono (by omega) (ih w3)

theorem wf_nil : Memory.wf [] = true := rfl

theorem wf_memSet {m : List Host.Cell} (w : Memory.wf m = true) (a : Nat) (b : Byte) : Memory.wf (memSet m a b) = true :=
  memWfFrom_memSet a b (Nat.zero_le a) w

theorem wf_memWrite {m : List Host.Cell} (w : Memory.wf m = true) (a : Nat) (l : List Byte) : Memory.wf (memWrite m a l) = true := by
  induction l generalizing m a with
  | nil => exact w
  | cons b t ih => exact ih (wf_memSet w a b) (a + 1)

theorem wf_filter {m : List Host.Cell} (w : Memory.wf m = true) (p : Host.Cell → Bool) : Memory.wf (m.filter p) = true :=
  memWfFrom_filter p w

theorem wf_memClear {m : List Host.Cell} (w : Memory.wf m = true) (a n : Nat) : Memory.wf (memClear m a n) = true := wf_filter w _

theorem wf_memSlice {m : List Host.Cell} (w : Memory.wf m = true) (a n : Nat) : Memory.wf (memSlice m a n) = true := wf_filter w _

theorem wf_memPaste {m : List Host.Cell} (w : Memory.wf m = true) (src dst : Nat) (l : List Host.Cell) :
    Memory.wf (memPaste m src dst l) = true := by
  induction l generalizing m with
  | nil => exact w
  | cons c t ih => exact ih (wf_memSet w _ _)

theorem wf_memCopy {m : List Host.Cell} (w : Memory.wf m = true) (src dst n : Nat) : Memory.wf (memCopy m src dst n) = true :=
  wf_memPaste (wf_memClear w dst n) src dst _

theorem wf_writeRuns {m : List Host.Cell} (w : Memory.wf m = true) (l : List (Nat × List Byte)) : Memory.wf (writeRuns m l) = true := by
  induction l generalizing m with
  | nil => exact w
  | cons r t ih => exact ih (wf_memWrite w _ _)

theorem wf_reset : Memory.wf State.reset.mem = true := rfl

/-! ### Reads after writes -/

theorem memGet_below {m : List Host.Cell} {lo a : Nat} (w : memWfFrom lo m = true) (h : a < lo) : memGet m a = unwritten := by
  induction m generalizing lo with
  | nil => rfl
  | cons c t ih =>
    obtain ⟨i, x⟩ := c
    simp only [memWfFrom, Bool.and_eq_true, decide_eq_true_eq] at w
    simp only [memGet]
    rw [if_neg (by omega)]
    exact ih w.2 (by omega)

theorem memGet_memSet {m : List Host.Cell} (w : Memory.wf m = true) (a : Nat) (b : Byte) : memGet (memSet m a b) a = b := by
  have go : ∀ (m : List Host.Cell) (lo : Nat), memWfFrom lo m = true → memGet (memSet m a b) a = b := by
    intro m
    induction m with
    | nil => intro _ _; by_cases e : b = unwritten <;> simp [memSet, e, memGet]
    | cons c t ih =>
      intro lo w
      obtain ⟨i, x⟩ := c
      simp only [memWfFrom, Bool.and_eq_true, decide_eq_true_eq] at w
      simp only [memSet]
      split
      · next l =>
        split
        · next e => simp only [memGet]; rw [if_neg (by omega), memGet_below w.2 (by omega), e]
        · simp [memGet]
      · split
        · next e =>
          split
          · next u => rw [memGet_below w.2 (by omega), u]
          · simp [memGet]
        · next e => simp only [memGet]; rw [if_neg e]; exact ih _ w.2
  exact go m 0 w

theorem memGet_memSet_ne (m : List Host.Cell) {a k : Nat} (b : Byte) (h : k ≠ a) : memGet (memSet m a b) k = memGet m k := by
  induction m with
  | nil => by_cases e : b = unwritten <;> simp [memSet, e, memGet, Ne.symm h]
  | cons c t ih =>
    obtain ⟨i, x⟩ := c
    simp only [memSet]
    split
    · split
      · rfl
      · simp [memGet, Ne.symm h]
    · split
      · next e =>
        have hk : i ≠ k := by omega
        split <;> simp [memGet, hk, Ne.symm h]
      · simp only [memGet, ih]

/-- A write leaves every address outside it alone. -/
theorem memGet_memWrite_outside (m : List Host.Cell) (a : Nat) (l : List Byte) {k : Nat} (h : k < a ∨ a + l.length ≤ k) :
    memGet (memWrite m a l) k = memGet m k := by
  induction l generalizing m a with
  | nil => rfl
  | cons b t ih =>
    simp only [List.length_cons] at h
    rw [memWrite, ih _ _ (by omega), memGet_memSet_ne _ _ (by omega)]

/-- A read of a written address gives the byte written there. -/
theorem memGet_memWrite_inside {m : List Host.Cell} (w : Memory.wf m = true) (a : Nat) (l : List Byte) {j : Nat} (h : j < l.length) :
    memGet (memWrite m a l) (a + j) = l.getD j unwritten := by
  induction l generalizing m a j with
  | nil => simp at h
  | cons b t ih =>
    simp only [memWrite]
    cases j with
    | zero => rw [memGet_memWrite_outside _ _ _ (by omega)]; simpa using memGet_memSet w a b
    | succ j =>
      rw [show a + (j + 1) = a + 1 + j by omega, ih (wf_memSet w a b) (a + 1) (by simpa using h)]
      simp

theorem memRead_length (m : List Host.Cell) (a n : Nat) : (memRead m a n).length = n := by
  induction n generalizing a with
  | zero => rfl
  | succ n ih => simp [memRead, ih]

/-- The bytes written are the bytes read back. -/
theorem memRead_memWrite {m : List Host.Cell} (w : Memory.wf m = true) (a : Nat) (l : List Byte) :
    memRead (memWrite m a l) a l.length = l := by
  induction l generalizing m a with
  | nil => rfl
  | cons b t ih =>
    simp only [List.length_cons, memRead]
    rw [show memWrite m a (b :: t) = memWrite (memSet m a b) (a + 1) t from rfl, ih (wf_memSet w a b) (a + 1),
      memGet_memWrite_outside _ _ _ (by omega), memGet_memSet w]

end Sys2Proof.Machine
end

