-- ==== Sys2Proof/Laws/PerInstr.lean ====
section
/-! SUPPORT. A fact of every instruction as syntax: a row and the row its word decodes to have one guard, one privilege and one word. -/
namespace Sys2Proof.Laws.WordRow
open Sys2Proof Sys2Proof.Machine

/-- The row that i's word decodes to has i's guard and privilege, and decodes to itself (log 6). -/
def Statement (i : Instr) : Prop :=
  guardOf (firstOf i) = guardOf i ∧ privilegedInfo (firstOf i) = privilegedInfo i ∧ encode (firstOf i) = encode i ∧
    firstOf (firstOf i) = firstOf i

theorem add (o : OpDAB) : Statement (.add o) := ⟨rfl, rfl, rfl, rfl⟩
theorem sub (o : OpDAB) : Statement (.sub o) := ⟨rfl, rfl, rfl, rfl⟩
theorem and (o : OpDAB) : Statement (.and o) := ⟨rfl, rfl, rfl, rfl⟩
theorem or (o : OpDAB) : Statement (.or o) := ⟨rfl, rfl, rfl, rfl⟩
theorem xor (o : OpDAB) : Statement (.xor o) := ⟨rfl, rfl, rfl, rfl⟩
theorem shl (o : OpDAB) : Statement (.shl o) := ⟨rfl, rfl, rfl, rfl⟩
theorem shr (o : OpDAB) : Statement (.shr o) := ⟨rfl, rfl, rfl, rfl⟩
theorem sar (o : OpDAB) : Statement (.sar o) := ⟨rfl, rfl, rfl, rfl⟩
theorem mul (o : OpDAB) : Statement (.mul o) := ⟨rfl, rfl, rfl, rfl⟩
theorem mulhu (o : OpDAB) : Statement (.mulhu o) := ⟨rfl, rfl, rfl, rfl⟩
theorem min (o : OpDAB) : Statement (.min o) := ⟨rfl, rfl, rfl, rfl⟩
theorem max (o : OpDAB) : Statement (.max o) := ⟨rfl, rfl, rfl, rfl⟩
theorem mov (o : OpDA) : Statement (.mov o) := ⟨rfl, rfl, rfl, rfl⟩
theorem not (o : OpDA) : Statement (.not o) := ⟨rfl, rfl, rfl, rfl⟩
theorem neg (o : OpDA) : Statement (.neg o) := ⟨rfl, rfl, rfl, rfl⟩
theorem lea (o : OpDABS) : Statement (.lea o) := ⟨rfl, rfl, rfl, rfl⟩
theorem cmpeq (o : OpCmp) : Statement (.cmpeq o) := ⟨rfl, rfl, rfl, rfl⟩
theorem cmpne (o : OpCmp) : Statement (.cmpne o) := ⟨rfl, rfl, rfl, rfl⟩
theorem cmplt (o : OpCmp) : Statement (.cmplt o) := ⟨rfl, rfl, rfl, rfl⟩
theorem cmpltu (o : OpCmp) : Statement (.cmpltu o) := ⟨rfl, rfl, rfl, rfl⟩
theorem addi (o : OpDAI) : Statement (.addi o) := ⟨rfl, rfl, rfl, rfl⟩
theorem shli (o : OpDAN) : Statement (.shli o) := ⟨rfl, rfl, rfl, rfl⟩
theorem shri (o : OpDAN) : Statement (.shri o) := ⟨rfl, rfl, rfl, rfl⟩
theorem sari (o : OpDAN) : Statement (.sari o) := ⟨rfl, rfl, rfl, rfl⟩
theorem cmpeqi (o : OpCmpI) : Statement (.cmpeqi o) := ⟨rfl, rfl, rfl, rfl⟩
theorem cmplti (o : OpCmpI) : Statement (.cmplti o) := ⟨rfl, rfl, rfl, rfl⟩
theorem movi (o : OpDI) : Statement (.movi o) := ⟨rfl, rfl, rfl, rfl⟩
theorem movhi (o : OpDN) : Statement (.movhi o) := ⟨rfl, rfl, rfl, rfl⟩
theorem ld (o : OpLoad) : Statement (.ld o) := ⟨rfl, rfl, rfl, rfl⟩
theorem ldu (o : OpLoad) : Statement (.ldu o) := ⟨rfl, rfl, rfl, rfl⟩
theorem st (o : OpStore) : Statement (.st o) := ⟨rfl, rfl, rfl, rfl⟩
theorem lds (o : OpLoad) : Statement (.lds o) := ⟨rfl, rfl, rfl, rfl⟩
theorem amoSwap (o : OpAmo) : Statement (.amoSwap o) := ⟨rfl, rfl, rfl, rfl⟩
theorem amoCas (o : OpAmoC) : Statement (.amoCas o) := ⟨rfl, rfl, rfl, rfl⟩
theorem amoAdd (o : OpAmo) : Statement (.amoAdd o) := ⟨rfl, rfl, rfl, rfl⟩
theorem amoMax (o : OpAmo) : Statement (.amoMax o) := ⟨rfl, rfl, rfl, rfl⟩
theorem redAdd (o : OpRed) : Statement (.redAdd o) := ⟨rfl, rfl, rfl, rfl⟩
theorem redAnd (o : OpRed) : Statement (.redAnd o) := ⟨rfl, rfl, rfl, rfl⟩
theorem redOr (o : OpRed) : Statement (.redOr o) := ⟨rfl, rfl, rfl, rfl⟩
theorem redXor (o : OpRed) : Statement (.redXor o) := ⟨rfl, rfl, rfl, rfl⟩
theorem redMin (o : OpRed) : Statement (.redMin o) := ⟨rfl, rfl, rfl, rfl⟩
theorem redMax (o : OpRed) : Statement (.redMax o) := ⟨rfl, rfl, rfl, rfl⟩
theorem redMinu (o : OpRed) : Statement (.redMinu o) := ⟨rfl, rfl, rfl, rfl⟩
theorem redMaxu (o : OpRed) : Statement (.redMaxu o) := ⟨rfl, rfl, rfl, rfl⟩
theorem redFadd (o : OpRed) : Statement (.redFadd o) := ⟨rfl, rfl, rfl, rfl⟩
theorem redFmax (o : OpRed) : Statement (.redFmax o) := ⟨rfl, rfl, rfl, rfl⟩
theorem redFmin (o : OpRed) : Statement (.redFmin o) := ⟨rfl, rfl, rfl, rfl⟩
theorem br (o : OpBr) : Statement (.br o) := ⟨rfl, rfl, rfl, rfl⟩
theorem call (o : OpCall) : Statement (.call o) := ⟨rfl, rfl, rfl, rfl⟩
theorem jr (o : OpA) : Statement (.jr o) := ⟨rfl, rfl, rfl, rfl⟩
theorem jalr (o : OpDA) : Statement (.jalr o) := ⟨rfl, rfl, rfl, rfl⟩
theorem loop (o : OpDN) : Statement (.loop o) := ⟨rfl, rfl, rfl, rfl⟩
theorem spawn (o : OpSpawn) : Statement (.spawn o) := ⟨rfl, rfl, rfl, rfl⟩
theorem waiteq (o : OpWait) : Statement (.waiteq o) := ⟨rfl, rfl, rfl, rfl⟩
theorem waitne (o : OpWait) : Statement (.waitne o) := ⟨rfl, rfl, rfl, rfl⟩
theorem waitge (o : OpWait) : Statement (.waitge o) := ⟨rfl, rfl, rfl, rfl⟩
theorem waitany (o : OpWaitAny) : Statement (.waitany o) := ⟨rfl, rfl, rfl, rfl⟩
theorem fwait (o : OpA) : Statement (.fwait o) := ⟨rfl, rfl, rfl, rfl⟩
theorem ftest (o : OpA) : Statement (.ftest o) := ⟨rfl, rfl, rfl, rfl⟩
theorem fcancel (o : OpA) : Statement (.fcancel o) := ⟨rfl, rfl, rfl, rfl⟩
theorem fstatus (o : OpDA) : Statement (.fstatus o) := ⟨rfl, rfl, rfl, rfl⟩
theorem nop (o : Op0) : Statement (.nop o) := ⟨rfl, rfl, rfl, rfl⟩
theorem exit (o : Op0) : Statement (.exit o) := ⟨rfl, rfl, rfl, rfl⟩
theorem join (o : Op0) : Statement (.join o) := ⟨rfl, rfl, rfl, rfl⟩
theorem yield (o : Op0) : Statement (.yield o) := ⟨rfl, rfl, rfl, rfl⟩
theorem brkl (o : Op0) : Statement (.brkl o) := ⟨rfl, rfl, rfl, rfl⟩
theorem fenceCore (o : OpX) : Statement (.fenceCore o) := ⟨rfl, rfl, rfl, rfl⟩
theorem fenceClus (o : OpX) : Statement (.fenceClus o) := ⟨rfl, rfl, rfl, rfl⟩
theorem fencePart (o : OpX) : Statement (.fencePart o) := ⟨rfl, rfl, rfl, rfl⟩
theorem fenceFab (o : OpX) : Statement (.fenceFab o) := ⟨rfl, rfl, rfl, rfl⟩
theorem fenceSys (o : OpX) : Statement (.fenceSys o) := ⟨rfl, rfl, rfl, rfl⟩
theorem trap (o : OpTrap) : Statement (.trap o) := ⟨rfl, rfl, rfl, rfl⟩
theorem pin (o : Op0) : Statement (.pin o) := ⟨rfl, rfl, rfl, rfl⟩
theorem unpin (o : Op0) : Statement (.unpin o) := ⟨rfl, rfl, rfl, rfl⟩
theorem div (o : OpDAB) : Statement (.div o) := ⟨rfl, rfl, rfl, rfl⟩
theorem divu (o : OpDAB) : Statement (.divu o) := ⟨rfl, rfl, rfl, rfl⟩
theorem rem (o : OpDAB) : Statement (.rem o) := ⟨rfl, rfl, rfl, rfl⟩
theorem remu (o : OpDAB) : Statement (.remu o) := ⟨rfl, rfl, rfl, rfl⟩
theorem minu (o : OpDAB) : Statement (.minu o) := ⟨rfl, rfl, rfl, rfl⟩
theorem maxu (o : OpDAB) : Statement (.maxu o) := ⟨rfl, rfl, rfl, rfl⟩
theorem rotl (o : OpDAB) : Statement (.rotl o) := ⟨rfl, rfl, rfl, rfl⟩
theorem rotr (o : OpDAB) : Statement (.rotr o) := ⟨rfl, rfl, rfl, rfl⟩
theorem popc (o : OpDA) : Statement (.popc o) := ⟨rfl, rfl, rfl, rfl⟩
theorem clz (o : OpDA) : Statement (.clz o) := ⟨rfl, rfl, rfl, rfl⟩
theorem ctz (o : OpDA) : Statement (.ctz o) := ⟨rfl, rfl, rfl, rfl⟩
theorem brev (o : OpDA) : Statement (.brev o) := ⟨rfl, rfl, rfl, rfl⟩
theorem bfx (o : OpDAB) : Statement (.bfx o) := ⟨rfl, rfl, rfl, rfl⟩
theorem bfi (o : OpDAB) : Statement (.bfi o) := ⟨rfl, rfl, rfl, rfl⟩
theorem bswap (o : OpDAS) : Statement (.bswap o) := ⟨rfl, rfl, rfl, rfl⟩
theorem sext (o : OpDAS) : Statement (.sext o) := ⟨rfl, rfl, rfl, rfl⟩
theorem fadd (o : OpDAB) : Statement (.fadd o) := ⟨rfl, rfl, rfl, rfl⟩
theorem fsub (o : OpDAB) : Statement (.fsub o) := ⟨rfl, rfl, rfl, rfl⟩
theorem fmul (o : OpDAB) : Statement (.fmul o) := ⟨rfl, rfl, rfl, rfl⟩
theorem fdiv (o : OpDAB) : Statement (.fdiv o) := ⟨rfl, rfl, rfl, rfl⟩
theorem fmin (o : OpDAB) : Statement (.fmin o) := ⟨rfl, rfl, rfl, rfl⟩
theorem fmax (o : OpDAB) : Statement (.fmax o) := ⟨rfl, rfl, rfl, rfl⟩
theorem fsqrt (o : OpDA) : Statement (.fsqrt o) := ⟨rfl, rfl, rfl, rfl⟩
theorem fabs (o : OpDA) : Statement (.fabs o) := ⟨rfl, rfl, rfl, rfl⟩
theorem fma (o : OpDABC) : Statement (.fma o) := ⟨rfl, rfl, rfl, rfl⟩
theorem fms (o : OpDABC) : Statement (.fms o) := ⟨rfl, rfl, rfl, rfl⟩
theorem fnma (o : OpDABC) : Statement (.fnma o) := ⟨rfl, rfl, rfl, rfl⟩
theorem fnms (o : OpDABC) : Statement (.fnms o) := ⟨rfl, rfl, rfl, rfl⟩
theorem fcmpeq (o : OpCmp) : Statement (.fcmpeq o) := ⟨rfl, rfl, rfl, rfl⟩
theorem fcmplt (o : OpCmp) : Statement (.fcmplt o) := ⟨rfl, rfl, rfl, rfl⟩
theorem fcmple (o : OpCmp) : Statement (.fcmple o) := ⟨rfl, rfl, rfl, rfl⟩
theorem fcmpun (o : OpCmp) : Statement (.fcmpun o) := ⟨rfl, rfl, rfl, rfl⟩
theorem cvtif (o : OpDA) : Statement (.cvtif o) := ⟨rfl, rfl, rfl, rfl⟩
theorem cvtfi (o : OpDA) : Statement (.cvtfi o) := ⟨rfl, rfl, rfl, rfl⟩
theorem cvtfb (o : OpDA) : Statement (.cvtfb o) := ⟨rfl, rfl, rfl, rfl⟩
theorem cvtbf (o : OpDA) : Statement (.cvtbf o) := ⟨rfl, rfl, rfl, rfl⟩
theorem cvtf8 (o : OpDA) : Statement (.cvtf8 o) := ⟨rfl, rfl, rfl, rfl⟩
theorem cvt8f (o : OpDA) : Statement (.cvt8f o) := ⟨rfl, rfl, rfl, rfl⟩
theorem cvtf6 (o : OpDA) : Statement (.cvtf6 o) := ⟨rfl, rfl, rfl, rfl⟩
theorem cvt6f (o : OpDA) : Statement (.cvt6f o) := ⟨rfl, rfl, rfl, rfl⟩
theorem vntest (o : OpCmpA) : Statement (.vntest o) := ⟨rfl, rfl, rfl, rfl⟩
theorem vnrep (o : OpDAB) : Statement (.vnrep o) := ⟨rfl, rfl, rfl, rfl⟩
theorem vninfo (o : OpDA) : Statement (.vninfo o) := ⟨rfl, rfl, rfl, rfl⟩
theorem fneg (o : OpDA) : Statement (.fneg o) := ⟨rfl, rfl, rfl, rfl⟩
theorem fclass (o : OpDA) : Statement (.fclass o) := ⟨rfl, rfl, rfl, rfl⟩
theorem mfs (o : OpDN) : Statement (.mfs o) := ⟨rfl, rfl, rfl, rfl⟩
theorem mts (o : OpDN) : Statement (.mts o) := ⟨rfl, rfl, rfl, rfl⟩
theorem vadd (o : OpVDAB) : Statement (.vadd o) := ⟨rfl, rfl, rfl, rfl⟩
theorem vsub (o : OpVDAB) : Statement (.vsub o) := ⟨rfl, rfl, rfl, rfl⟩
theorem vmul (o : OpVDAB) : Statement (.vmul o) := ⟨rfl, rfl, rfl, rfl⟩
theorem vdiv (o : OpVDAB) : Statement (.vdiv o) := ⟨rfl, rfl, rfl, rfl⟩
theorem vmin (o : OpVDAB) : Statement (.vmin o) := ⟨rfl, rfl, rfl, rfl⟩
theorem vmax (o : OpVDAB) : Statement (.vmax o) := ⟨rfl, rfl, rfl, rfl⟩
theorem vand (o : OpVDAB) : Statement (.vand o) := ⟨rfl, rfl, rfl, rfl⟩
theorem vor (o : OpVDAB) : Statement (.vor o) := ⟨rfl, rfl, rfl, rfl⟩
theorem vxor (o : OpVDAB) : Statement (.vxor o) := ⟨rfl, rfl, rfl, rfl⟩
theorem vshl (o : OpVDAB) : Statement (.vshl o) := ⟨rfl, rfl, rfl, rfl⟩
theorem vshr (o : OpVDAB) : Statement (.vshr o) := ⟨rfl, rfl, rfl, rfl⟩
theorem vsar (o : OpVDAB) : Statement (.vsar o) := ⟨rfl, rfl, rfl, rfl⟩
theorem vfma (o : OpVDABC) : Statement (.vfma o) := ⟨rfl, rfl, rfl, rfl⟩
theorem vfms (o : OpVDABC) : Statement (.vfms o) := ⟨rfl, rfl, rfl, rfl⟩
theorem vabsd (o : OpVDAB) : Statement (.vabsd o) := ⟨rfl, rfl, rfl, rfl⟩
theorem vsqd (o : OpVDAB) : Statement (.vsqd o) := ⟨rfl, rfl, rfl, rfl⟩
theorem vadds (o : OpVDAB) : Statement (.vadds o) := ⟨rfl, rfl, rfl, rfl⟩
theorem vmuls (o : OpVDAB) : Statement (.vmuls o) := ⟨rfl, rfl, rfl, rfl⟩
theorem vmaxs (o : OpVDAB) : Statement (.vmaxs o) := ⟨rfl, rfl, rfl, rfl⟩
theorem vsplat (o : OpVDA) : Statement (.vsplat o) := ⟨rfl, rfl, rfl, rfl⟩
theorem vcmpeq (o : OpVCmp) : Statement (.vcmpeq o) := ⟨rfl, rfl, rfl, rfl⟩
theorem vcmpne (o : OpVCmp) : Statement (.vcmpne o) := ⟨rfl, rfl, rfl, rfl⟩
theorem vcmplt (o : OpVCmp) : Statement (.vcmplt o) := ⟨rfl, rfl, rfl, rfl⟩
theorem vcmple (o : OpVCmp) : Statement (.vcmple o) := ⟨rfl, rfl, rfl, rfl⟩
theorem vsel (o : OpVDAB) : Statement (.vsel o) := ⟨rfl, rfl, rfl, rfl⟩
theorem vmov (o : OpVDA) : Statement (.vmov o) := ⟨rfl, rfl, rfl, rfl⟩
theorem vneg (o : OpVDA) : Statement (.vneg o) := ⟨rfl, rfl, rfl, rfl⟩
theorem vabs (o : OpVDA) : Statement (.vabs o) := ⟨rfl, rfl, rfl, rfl⟩
theorem vredsum (o : OpVDA) : Statement (.vredsum o) := ⟨rfl, rfl, rfl, rfl⟩
theorem vredmax (o : OpVDA) : Statement (.vredmax o) := ⟨rfl, rfl, rfl, rfl⟩
theorem vredmin (o : OpVDA) : Statement (.vredmin o) := ⟨rfl, rfl, rfl, rfl⟩
theorem vredarg (o : OpVDA) : Statement (.vredarg o) := ⟨rfl, rfl, rfl, rfl⟩
theorem vcvt (o : OpVDA) : Statement (.vcvt o) := ⟨rfl, rfl, rfl, rfl⟩
theorem vscale (o : OpVDA) : Statement (.vscale o) := ⟨rfl, rfl, rfl, rfl⟩
theorem viota (o : OpVD) : Statement (.viota o) := ⟨rfl, rfl, rfl, rfl⟩
theorem vcomp (o : OpVDA) : Statement (.vcomp o) := ⟨rfl, rfl, rfl, rfl⟩
theorem vld (o : OpVLoad) : Statement (.vld o) := ⟨rfl, rfl, rfl, rfl⟩
theorem vst (o : OpVStore) : Statement (.vst o) := ⟨rfl, rfl, rfl, rfl⟩
theorem vlds (o : OpVLoadB) : Statement (.vlds o) := ⟨rfl, rfl, rfl, rfl⟩
theorem vsts (o : OpVStoreB) : Statement (.vsts o) := ⟨rfl, rfl, rfl, rfl⟩
theorem vldb (o : OpVLoadB) : Statement (.vldb o) := ⟨rfl, rfl, rfl, rfl⟩
theorem vstb (o : OpVStoreB) : Statement (.vstb o) := ⟨rfl, rfl, rfl, rfl⟩
theorem vgath (o : OpVLane) : Statement (.vgath o) := ⟨rfl, rfl, rfl, rfl⟩
theorem vscat (o : OpVLane) : Statement (.vscat o) := ⟨rfl, rfl, rfl, rfl⟩
theorem vscatadd (o : OpVLane) : Statement (.vscatadd o) := ⟨rfl, rfl, rfl, rfl⟩
theorem vscatmax (o : OpVLane) : Statement (.vscatmax o) := ⟨rfl, rfl, rfl, rfl⟩
theorem vtopkins (o : OpVDAB) : Statement (.vtopkins o) := ⟨rfl, rfl, rfl, rfl⟩
theorem vtopkthr (o : OpVDA) : Statement (.vtopkthr o) := ⟨rfl, rfl, rfl, rfl⟩
theorem vnmask (o : OpVNMask) : Statement (.vnmask o) := ⟨rfl, rfl, rfl, rfl⟩
theorem vnrepv (o : OpVDAB) : Statement (.vnrepv o) := ⟨rfl, rfl, rfl, rfl⟩
theorem vbind (o : Op0) : Statement (.vbind o) := ⟨rfl, rfl, rfl, rfl⟩
theorem vfree (o : Op0) : Statement (.vfree o) := ⟨rfl, rfl, rfl, rfl⟩
theorem vsetl (o : OpX) : Statement (.vsetl o) := ⟨rfl, rfl, rfl, rfl⟩
theorem vgetl (o : OpX) : Statement (.vgetl o) := ⟨rfl, rfl, rfl, rfl⟩
theorem vwait (o : Op0) : Statement (.vwait o) := ⟨rfl, rfl, rfl, rfl⟩
theorem vpixrd (o : OpX) : Statement (.vpixrd o) := ⟨rfl, rfl, rfl, rfl⟩
theorem rclaim (o : OpDAB) : Statement (.rclaim o) := ⟨rfl, rfl, rfl, rfl⟩
theorem rpub (o : OpAB) : Statement (.rpub o) := ⟨rfl, rfl, rfl, rfl⟩
theorem rpop (o : OpAB) : Statement (.rpop o) := ⟨rfl, rfl, rfl, rfl⟩
theorem rpeek (o : OpDAB) : Statement (.rpeek o) := ⟨rfl, rfl, rfl, rfl⟩
theorem rwaitf (o : OpDAB) : Statement (.rwaitf o) := ⟨rfl, rfl, rfl, rfl⟩
theorem rwaite (o : OpDAB) : Statement (.rwaite o) := ⟨rfl, rfl, rfl, rfl⟩
theorem rstat (o : OpDA) : Statement (.rstat o) := ⟨rfl, rfl, rfl, rfl⟩
theorem rcfg (o : OpAB) : Statement (.rcfg o) := ⟨rfl, rfl, rfl, rfl⟩
theorem rapp (o : OpDAB) : Statement (.rapp o) := ⟨rfl, rfl, rfl, rfl⟩
theorem rsteal (o : OpDA) : Statement (.rsteal o) := ⟨rfl, rfl, rfl, rfl⟩
theorem rpopt (o : OpDA) : Statement (.rpopt o) := ⟨rfl, rfl, rfl, rfl⟩
theorem rcred (o : OpDA) : Statement (.rcred o) := ⟨rfl, rfl, rfl, rfl⟩
theorem qbind (o : OpA) : Statement (.qbind o) := ⟨rfl, rfl, rfl, rfl⟩
theorem qfree (o : Op0) : Statement (.qfree o) := ⟨rfl, rfl, rfl, rfl⟩
theorem copy (o : OpDA) : Statement (.copy o) := ⟨rfl, rfl, rfl, rfl⟩
theorem bcset (o : OpAB) : Statement (.bcset o) := ⟨rfl, rfl, rfl, rfl⟩
theorem bcwait (o : OpDAB) : Statement (.bcwait o) := ⟨rfl, rfl, rfl, rfl⟩
theorem mtask (o : OpDA) : Statement (.mtask o) := ⟨rfl, rfl, rfl, rfl⟩
theorem mprog (o : OpAB) : Statement (.mprog o) := ⟨rfl, rfl, rfl, rfl⟩
theorem mthr (o : OpA) : Statement (.mthr o) := ⟨rfl, rfl, rfl, rfl⟩
theorem mquery (o : OpDA) : Statement (.mquery o) := ⟨rfl, rfl, rfl, rfl⟩
theorem barc (o : OpD) : Statement (.barc o) := ⟨rfl, rfl, rfl, rfl⟩
theorem barg (o : OpDA) : Statement (.barg o) := ⟨rfl, rfl, rfl, rfl⟩
theorem barga (o : OpA) : Statement (.barga o) := ⟨rfl, rfl, rfl, rfl⟩
theorem bargw (o : OpDAB) : Statement (.bargw o) := ⟨rfl, rfl, rfl, rfl⟩
theorem wsum (o : OpDAB) : Statement (.wsum o) := ⟨rfl, rfl, rfl, rfl⟩
theorem wmax (o : OpDAB) : Statement (.wmax o) := ⟨rfl, rfl, rfl, rfl⟩
theorem wmin (o : OpDAB) : Statement (.wmin o) := ⟨rfl, rfl, rfl, rfl⟩
theorem wor (o : OpDAB) : Statement (.wor o) := ⟨rfl, rfl, rfl, rfl⟩
theorem launch (o : OpDA) : Statement (.launch o) := ⟨rfl, rfl, rfl, rfl⟩
theorem lstat (o : OpDA) : Statement (.lstat o) := ⟨rfl, rfl, rfl, rfl⟩
theorem tsc (o : OpX) : Statement (.tsc o) := ⟨rfl, rfl, rfl, rfl⟩
theorem whereAt (o : OpX) : Statement (.whereAt o) := ⟨rfl, rfl, rfl, rfl⟩
theorem lnum (o : OpX) : Statement (.lnum o) := ⟨rfl, rfl, rfl, rfl⟩
theorem ganginfo (o : OpX) : Statement (.ganginfo o) := ⟨rfl, rfl, rfl, rfl⟩
theorem crewinfo (o : OpX) : Statement (.crewinfo o) := ⟨rfl, rfl, rfl, rfl⟩
theorem feat (o : OpX) : Statement (.feat o) := ⟨rfl, rfl, rfl, rfl⟩
theorem seam (o : OpX) : Statement (.seam o) := ⟨rfl, rfl, rfl, rfl⟩
theorem mfsp (o : OpDN) : Statement (.mfsp o) := ⟨rfl, rfl, rfl, rfl⟩
theorem mtsp (o : OpDN) : Statement (.mtsp o) := ⟨rfl, rfl, rfl, rfl⟩
theorem vshareWrite (o : OpD) : Statement (.vshareWrite o) := ⟨rfl, rfl, rfl, rfl⟩
theorem dctlInstall (o : OpD) : Statement (.dctlInstall o) := ⟨rfl, rfl, rfl, rfl⟩
theorem logctlInstall (o : OpD) : Statement (.logctlInstall o) := ⟨rfl, rfl, rfl, rfl⟩
theorem logcmdSeam (o : OpD) : Statement (.logcmdSeam o) := ⟨rfl, rfl, rfl, rfl⟩
theorem invr (o : OpDAB) : Statement (.invr o) := ⟨rfl, rfl, rfl, rfl⟩
theorem inva (o : OpA) : Statement (.inva o) := ⟨rfl, rfl, rfl, rfl⟩
theorem icinv (o : OpAB) : Statement (.icinv o) := ⟨rfl, rfl, rfl, rfl⟩
theorem trapret (o : Op0) : Statement (.trapret o) := ⟨rfl, rfl, rfl, rfl⟩
theorem reinj (o : OpAB) : Statement (.reinj o) := ⟨rfl, rfl, rfl, rfl⟩
theorem ctxsave (o : OpA) : Statement (.ctxsave o) := ⟨rfl, rfl, rfl, rfl⟩
theorem ctxload (o : OpA) : Statement (.ctxload o) := ⟨rfl, rfl, rfl, rfl⟩
theorem quiesceHold (o : OpDA) : Statement (.quiesceHold o) := ⟨rfl, rfl, rfl, rfl⟩
theorem partset (o : OpDA) : Statement (.partset o) := ⟨rfl, rfl, rfl, rfl⟩
theorem wswitch (o : OpDA) : Statement (.wswitch o) := ⟨rfl, rfl, rfl, rfl⟩
theorem halt (o : Op0) : Statement (.halt o) := ⟨rfl, rfl, rfl, rfl⟩
theorem ctrrd (o : OpDA) : Statement (.ctrrd o) := ⟨rfl, rfl, rfl, rfl⟩
theorem ctrcfg (o : OpAB) : Statement (.ctrcfg o) := ⟨rfl, rfl, rfl, rfl⟩
theorem ctrsave (o : OpA) : Statement (.ctrsave o) := ⟨rfl, rfl, rfl, rfl⟩
theorem ctrload (o : OpA) : Statement (.ctrload o) := ⟨rfl, rfl, rfl, rfl⟩
theorem mirset (o : OpAB) : Statement (.mirset o) := ⟨rfl, rfl, rfl, rfl⟩
theorem mirsync (o : OpAB) : Statement (.mirsync o) := ⟨rfl, rfl, rfl, rfl⟩
theorem retire (o : OpAB) : Statement (.retire o) := ⟨rfl, rfl, rfl, rfl⟩
theorem dctlTeardown (o : OpD) : Statement (.dctlTeardown o) := ⟨rfl, rfl, rfl, rfl⟩
theorem logctlRemove (o : OpD) : Statement (.logctlRemove o) := ⟨rfl, rfl, rfl, rfl⟩
theorem logcmdUnpick (o : OpD) : Statement (.logcmdUnpick o) := ⟨rfl, rfl, rfl, rfl⟩
theorem logcmdForget (o : OpD) : Statement (.logcmdForget o) := ⟨rfl, rfl, rfl, rfl⟩
theorem logcmdResume (o : OpD) : Statement (.logcmdResume o) := ⟨rfl, rfl, rfl, rfl⟩
theorem quiesceRelease (o : OpDA) : Statement (.quiesceRelease o) := ⟨rfl, rfl, rfl, rfl⟩
theorem partsetDissolve (o : OpDA) : Statement (.partsetDissolve o) := ⟨rfl, rfl, rfl, rfl⟩
theorem vectorGrant (o : EvCore) : Statement (.vectorGrant o) := ⟨rfl, rfl, rfl, rfl⟩
theorem vectorComplete (o : EvCoreN) : Statement (.vectorComplete o) := ⟨rfl, rfl, rfl, rfl⟩
theorem barrelTurn (o : EvCore) : Statement (.barrelTurn o) := ⟨rfl, rfl, rfl, rfl⟩
theorem breakPoint (o : EvCoreN) : Statement (.breakPoint o) := ⟨rfl, rfl, rfl, rfl⟩
theorem coatDeparture (o : EvCoreN) : Statement (.coatDeparture o) := ⟨rfl, rfl, rfl, rfl⟩
theorem coatArrival (o : EvMsg) : Statement (.coatArrival o) := ⟨rfl, rfl, rfl, rfl⟩
theorem crewDescriptorReply (o : EvMsg) : Statement (.crewDescriptorReply o) := ⟨rfl, rfl, rfl, rfl⟩
theorem annexReply (o : EvMsg) : Statement (.annexReply o) := ⟨rfl, rfl, rfl, rfl⟩
theorem admissionAck (o : EvMsg) : Statement (.admissionAck o) := ⟨rfl, rfl, rfl, rfl⟩
theorem bounceLanding (o : EvMsg) : Statement (.bounceLanding o) := ⟨rfl, rfl, rfl, rfl⟩
theorem bounceBackoffExpiry (o : EvCoreN) : Statement (.bounceBackoffExpiry o) := ⟨rfl, rfl, rfl, rfl⟩
theorem coatForward (o : EvMsg) : Statement (.coatForward o) := ⟨rfl, rfl, rfl, rfl⟩
theorem ldsReply (o : EvMsg) : Statement (.ldsReply o) := ⟨rfl, rfl, rfl, rfl⟩
theorem remoteReadRequest (o : EvMsg) : Statement (.remoteReadRequest o) := ⟨rfl, rfl, rfl, rfl⟩
theorem remoteReply (o : EvMsg) : Statement (.remoteReply o) := ⟨rfl, rfl, rfl, rfl⟩
theorem postedWriteArrival (o : EvMsg) : Statement (.postedWriteArrival o) := ⟨rfl, rfl, rfl, rfl⟩
theorem redArrival (o : EvMsg) : Statement (.redArrival o) := ⟨rfl, rfl, rfl, rfl⟩
theorem mergeGroupTimeout (o : EvCoreN) : Statement (.mergeGroupTimeout o) := ⟨rfl, rfl, rfl, rfl⟩
theorem amoRequest (o : EvMsg) : Statement (.amoRequest o) := ⟨rfl, rfl, rfl, rfl⟩
theorem waitRequest (o : EvMsg) : Statement (.waitRequest o) := ⟨rfl, rfl, rfl, rfl⟩
theorem waiterResendTimer (o : EvMsg) : Statement (.waiterResendTimer o) := ⟨rfl, rfl, rfl, rfl⟩
theorem waitWithdrawal (o : EvMsg) : Statement (.waitWithdrawal o) := ⟨rfl, rfl, rfl, rfl⟩
theorem blockLimitExpiry (o : EvCoreN) : Statement (.blockLimitExpiry o) := ⟨rfl, rfl, rfl, rfl⟩
theorem postAck (o : EvMsg) : Statement (.postAck o) := ⟨rfl, rfl, rfl, rfl⟩
theorem postRefusal (o : EvMsg) : Statement (.postRefusal o) := ⟨rfl, rfl, rfl, rfl⟩
theorem requestResendTimer (o : EvMsg) : Statement (.requestResendTimer o) := ⟨rfl, rfl, rfl, rfl⟩
theorem boardQuery (o : EvMsg) : Statement (.boardQuery o) := ⟨rfl, rfl, rfl, rfl⟩
theorem boardReply (o : EvMsg) : Statement (.boardReply o) := ⟨rfl, rfl, rfl, rfl⟩
theorem cancelRequest (o : EvMsg) : Statement (.cancelRequest o) := ⟨rfl, rfl, rfl, rfl⟩
theorem mirrorUpdate (o : EvMsg) : Statement (.mirrorUpdate o) := ⟨rfl, rfl, rfl, rfl⟩
theorem appendArrival (o : EvMsg) : Statement (.appendArrival o) := ⟨rfl, rfl, rfl, rfl⟩
theorem appendReply (o : EvMsg) : Statement (.appendReply o) := ⟨rfl, rfl, rfl, rfl⟩
theorem creditRequest (o : EvMsg) : Statement (.creditRequest o) := ⟨rfl, rfl, rfl, rfl⟩
theorem creditGrant (o : EvMsg) : Statement (.creditGrant o) := ⟨rfl, rfl, rfl, rfl⟩
theorem creditResendTimer (o : EvCoreN) : Statement (.creditResendTimer o) := ⟨rfl, rfl, rfl, rfl⟩
theorem creditReturn (o : EvMsg) : Statement (.creditReturn o) := ⟨rfl, rfl, rfl, rfl⟩
theorem stealRequest (o : EvMsg) : Statement (.stealRequest o) := ⟨rfl, rfl, rfl, rfl⟩
theorem stealReply (o : EvMsg) : Statement (.stealReply o) := ⟨rfl, rfl, rfl, rfl⟩
theorem dependenceResolved (o : EvCoreN) : Statement (.dependenceResolved o) := ⟨rfl, rfl, rfl, rfl⟩
theorem taskIssue (o : EvCoreN) : Statement (.taskIssue o) := ⟨rfl, rfl, rfl, rfl⟩
theorem copyChunkSend (o : EvCoreN) : Statement (.copyChunkSend o) := ⟨rfl, rfl, rfl, rfl⟩
theorem copyChunkArrival (o : EvMsg) : Statement (.copyChunkArrival o) := ⟨rfl, rfl, rfl, rfl⟩
theorem copyChunkRefused (o : EvMsg) : Statement (.copyChunkRefused o) := ⟨rfl, rfl, rfl, rfl⟩
theorem copyResumeNotice (o : EvMsg) : Statement (.copyResumeNotice o) := ⟨rfl, rfl, rfl, rfl⟩
theorem copyPendingTimeout (o : EvCoreN) : Statement (.copyPendingTimeout o) := ⟨rfl, rfl, rfl, rfl⟩
theorem copyDone (o : EvCoreN) : Statement (.copyDone o) := ⟨rfl, rfl, rfl, rfl⟩
theorem matrixStep (o : EvCoreN) : Statement (.matrixStep o) := ⟨rfl, rfl, rfl, rfl⟩
theorem taskDone (o : EvCoreN) : Statement (.taskDone o) := ⟨rfl, rfl, rfl, rfl⟩
theorem scoreLaneTake (o : EvCoreN) : Statement (.scoreLaneTake o) := ⟨rfl, rfl, rfl, rfl⟩
theorem scoreBlock (o : EvCoreN) : Statement (.scoreBlock o) := ⟨rfl, rfl, rfl, rfl⟩
theorem thetaRefresh (o : EvCoreN) : Statement (.thetaRefresh o) := ⟨rfl, rfl, rfl, rfl⟩
theorem crewArrive (o : EvMsg) : Statement (.crewArrive o) := ⟨rfl, rfl, rfl, rfl⟩
theorem crewExitNotice (o : EvMsg) : Statement (.crewExitNotice o) := ⟨rfl, rfl, rfl, rfl⟩
theorem crewCompletion (o : EvMsg) : Statement (.crewCompletion o) := ⟨rfl, rfl, rfl, rfl⟩
theorem crewCompletionAck (o : EvMsg) : Statement (.crewCompletionAck o) := ⟨rfl, rfl, rfl, rfl⟩
theorem tscSync (o : EvPart) : Statement (.tscSync o) := ⟨rfl, rfl, rfl, rfl⟩
theorem invalidationDelivery (o : EvPart) : Statement (.invalidationDelivery o) := ⟨rfl, rfl, rfl, rfl⟩
theorem invalidationSweep (o : EvPart) : Statement (.invalidationSweep o) := ⟨rfl, rfl, rfl, rfl⟩
theorem launchStop (o : EvPartN) : Statement (.launchStop o) := ⟨rfl, rfl, rfl, rfl⟩
theorem descriptorDrop (o : EvPartN) : Statement (.descriptorDrop o) := ⟨rfl, rfl, rfl, rfl⟩
theorem mapBroadcast (o : EvPart) : Statement (.mapBroadcast o) := ⟨rfl, rfl, rfl, rfl⟩
theorem countingSweep (o : EvPartN) : Statement (.countingSweep o) := ⟨rfl, rfl, rfl, rfl⟩
theorem gangPhaseComplete (o : EvPhase) : Statement (.gangPhaseComplete o) := ⟨rfl, rfl, rfl, rfl⟩
theorem enqueue (o : EvMsg) : Statement (.enqueue o) := ⟨rfl, rfl, rfl, rfl⟩
theorem doorbellLaunch (o : EvDoorbell) : Statement (.doorbellLaunch o) := ⟨rfl, rfl, rfl, rfl⟩
theorem launchDepResolved (o : EvPartN) : Statement (.launchDepResolved o) := ⟨rfl, rfl, rfl, rfl⟩
theorem launchAgeing (o : EvPartN) : Statement (.launchAgeing o) := ⟨rfl, rfl, rfl, rfl⟩
theorem launchSelect (o : EvPart) : Statement (.launchSelect o) := ⟨rfl, rfl, rfl, rfl⟩
theorem gangPlacement (o : EvPartN) : Statement (.gangPlacement o) := ⟨rfl, rfl, rfl, rfl⟩
theorem preemptVictims (o : EvPartN) : Statement (.preemptVictims o) := ⟨rfl, rfl, rfl, rfl⟩
theorem gangSave (o : EvGang) : Statement (.gangSave o) := ⟨rfl, rfl, rfl, rfl⟩
theorem gangStart (o : EvGang) : Statement (.gangStart o) := ⟨rfl, rfl, rfl, rfl⟩
theorem preemptionStop (o : EvGang) : Statement (.preemptionStop o) := ⟨rfl, rfl, rfl, rfl⟩
theorem crewEnd (o : EvCrew) : Statement (.crewEnd o) := ⟨rfl, rfl, rfl, rfl⟩
theorem faultRecordArrival (o : EvMsg) : Statement (.faultRecordArrival o) := ⟨rfl, rfl, rfl, rfl⟩
theorem launchComplete (o : EvPartN) : Statement (.launchComplete o) := ⟨rfl, rfl, rfl, rfl⟩
theorem walkComplete (o : EvIdx) : Statement (.walkComplete o) := ⟨rfl, rfl, rfl, rfl⟩
theorem walkRetryTimer (o : EvIdx) : Statement (.walkRetryTimer o) := ⟨rfl, rfl, rfl, rfl⟩
theorem seamOpen (o : EvPartN) : Statement (.seamOpen o) := ⟨rfl, rfl, rfl, rfl⟩
theorem frayNotice (o : EvMsg) : Statement (.frayNotice o) := ⟨rfl, rfl, rfl, rfl⟩
theorem debugStop (o : EvCore) : Statement (.debugStop o) := ⟨rfl, rfl, rfl, rfl⟩
theorem debugStopComplete (o : EvCore) : Statement (.debugStopComplete o) := ⟨rfl, rfl, rfl, rfl⟩
theorem debugResume (o : EvCore) : Statement (.debugResume o) := ⟨rfl, rfl, rfl, rfl⟩
theorem controlRegisterWrite (o : EvCtl) : Statement (.controlRegisterWrite o) := ⟨rfl, rfl, rfl, rfl⟩
theorem dumpWrite (o : EvPart) : Statement (.dumpWrite o) := ⟨rfl, rfl, rfl, rfl⟩
theorem hostRead (o : EvHostRead) : Statement (.hostRead o) := ⟨rfl, rfl, rfl, rfl⟩
theorem hostWrite (o : EvHostWrite) : Statement (.hostWrite o) := ⟨rfl, rfl, rfl, rfl⟩
theorem hostAtomic (o : EvHostAtomic) : Statement (.hostAtomic o) := ⟨rfl, rfl, rfl, rfl⟩
theorem boot (o : EvBoot) : Statement (.boot o) := ⟨rfl, rfl, rfl, rfl⟩
theorem firmwareLoad (o : EvImage) : Statement (.firmwareLoad o) := ⟨rfl, rfl, rfl, rfl⟩
theorem attestation (o : EvNonce) : Statement (.attestation o) := ⟨rfl, rfl, rfl, rfl⟩
theorem lifetimeWrite (o : EvNone) : Statement (.lifetimeWrite o) := ⟨rfl, rfl, rfl, rfl⟩
theorem powerCheck (o : EvPower) : Statement (.powerCheck o) := ⟨rfl, rfl, rfl, rfl⟩
theorem checkpointCommand (o : EvCheckpoint) : Statement (.checkpointCommand o) := ⟨rfl, rfl, rfl, rfl⟩
theorem checkpointRestore (o : EvRestore) : Statement (.checkpointRestore o) := ⟨rfl, rfl, rfl, rfl⟩
theorem coreLoss (o : EvCore) : Statement (.coreLoss o) := ⟨rfl, rfl, rfl, rfl⟩
theorem linkFailure (o : EvIdx) : Statement (.linkFailure o) := ⟨rfl, rfl, rfl, rfl⟩
theorem linkCrcRetry (o : EvIdx) : Statement (.linkCrcRetry o) := ⟨rfl, rfl, rfl, rfl⟩
theorem fabricResult (o : EvMsg) : Statement (.fabricResult o) := ⟨rfl, rfl, rfl, rfl⟩
theorem gangArrive (o : EvMsg) : Statement (.gangArrive o) := ⟨rfl, rfl, rfl, rfl⟩
theorem proxyRequest (o : EvMsg) : Statement (.proxyRequest o) := ⟨rfl, rfl, rfl, rfl⟩
theorem fabricPartialArrival (o : EvMsg) : Statement (.fabricPartialArrival o) := ⟨rfl, rfl, rfl, rfl⟩
theorem abagalLinkDown (o : EvIdx) : Statement (.abagalLinkDown o) := ⟨rfl, rfl, rfl, rfl⟩
theorem orderlyShutdown (o : EvNone) : Statement (.orderlyShutdown o) := ⟨rfl, rfl, rfl, rfl⟩
theorem fabricCapabilityCommand (o : EvFabric) : Statement (.fabricCapabilityCommand o) := ⟨rfl, rfl, rfl, rfl⟩

end Sys2Proof.Laws.WordRow
end

