-- ==== Sys2Proof/Laws/State.lean ====
section
/-! SUPPORT. One lemma for each field and update of the state: tables, cores, strands, partitions, messages. -/
namespace Sys2Proof.Machine
open Sys2Proof

/-! ### Tables -/

@[simp] theorem tblGet_tblSet {α : Type} (d : α) (l : List (Nat × α)) (k : Nat) (x : α) : tblGet d (tblSet l k x) k = x := by
  induction l with
  | nil => simp [tblSet, tblGet]
  | cons h t ih =>
    obtain ⟨i, y⟩ := h
    simp only [tblSet]
    split
    · simp [tblGet]
    · split
      · simp [tblGet]
      · next h1 h2 => simp [tblGet, Ne.symm h2, ih]

theorem tblGet_tblSet_ne {α : Type} (d : α) (l : List (Nat × α)) {k j : Nat} (x : α) (h : j ≠ k) :
    tblGet d (tblSet l k x) j = tblGet d l j := by
  induction l with
  | nil => simp [tblSet, tblGet, Ne.symm h]
  | cons e t ih =>
    obtain ⟨i, y⟩ := e
    simp only [tblSet]
    split
    · simp [tblGet, Ne.symm h]
    · split
      · next h2 => simp [tblGet, ← h2, Ne.symm h]
      · simp [tblGet, ih]

@[simp] theorem lookup_tblSet {α : Type} (l : List (Nat × α)) (k : Nat) (x : α) : List.lookup k (tblSet l k x) = some x := by
  induction l with
  | nil => simp [tblSet]
  | cons h t ih =>
    obtain ⟨i, y⟩ := h
    simp only [tblSet]
    split
    · simp
    · split
      · simp
      · next h1 h2 => simp [List.lookup, beq_eq_false_iff_ne.mpr h2, ih]

theorem lookup_tblSet_ne {α : Type} (l : List (Nat × α)) {k j : Nat} (x : α) (h : j ≠ k) :
    List.lookup j (tblSet l k x) = List.lookup j l := by
  have hb : (j == k) = false := beq_eq_false_iff_ne.mpr h
  induction l with
  | nil => simp [tblSet, List.lookup, hb]
  | cons e t ih =>
    obtain ⟨i, y⟩ := e
    simp only [tblSet]
    split
    · simp [List.lookup, hb]
    · split
      · next h2 => subst h2; simp [List.lookup, hb]
      · simp [List.lookup, ih]

theorem lookup_filter_ne {α : Type} (l : List (Nat × α)) {k j : Nat} (h : j ≠ k) :
    List.lookup j (l.filter (fun e => e.1 != k)) = List.lookup j l := by
  induction l with
  | nil => rfl
  | cons e t ih =>
    obtain ⟨i, y⟩ := e
    rw [List.filter_cons]
    by_cases hi : i = k
    · have hj : (j == i) = false := beq_eq_false_iff_ne.mpr (hi ▸ h)
      simp only [hi, bne_self_eq_false, Bool.false_eq_true, if_false, List.lookup_cons, ih]
      rw [hi] at hj
      simp [hj]
    · rw [if_pos (by simpa using hi)]
      simp only [List.lookup_cons, ih]

@[simp] theorem lookup_filter_self {α : Type} (l : List (Nat × α)) (k : Nat) :
    List.lookup k (l.filter (fun e => e.1 != k)) = none := by
  induction l with
  | nil => rfl
  | cons e t ih =>
    obtain ⟨i, y⟩ := e
    rw [List.filter_cons]
    by_cases hi : i = k
    · rw [if_neg (by simp [hi])]
      exact ih
    · rw [if_pos (by simpa using hi), List.lookup_cons, beq_eq_false_iff_ne.mpr (Ne.symm hi)]
      exact ih

/-! ### Cores -/

@[simp] theorem State.core_setCore (s : State) (c : CoreId) (k : Core) : (s.setCore c k).core c = k := by
  simp [State.core, State.setCore]
theorem State.core_setCore_ne (s : State) {c d : CoreId} (k : Core) (h : coreKey d ≠ coreKey c) :
    (s.setCore c k).core d = s.core d := by
  simp [State.core, State.setCore, tblGet_tblSet_ne _ _ _ h]
@[simp] theorem State.core_modCore (s : State) (c : CoreId) (f : Core → Core) : (s.modCore c f).core c = f (s.core c) := by
  simp [State.modCore]
theorem State.core_modCore_ne (s : State) {c d : CoreId} (f : Core → Core) (h : coreKey d ≠ coreKey c) :
    (s.modCore c f).core d = s.core d := s.core_setCore_ne _ h

@[simp] theorem State.setCore_parts (s : State) (c : CoreId) (k : Core) : (s.setCore c k).parts = s.parts := rfl
@[simp] theorem State.setCore_pkg (s : State) (c : CoreId) (k : Core) : (s.setCore c k).pkg = s.pkg := rfl
@[simp] theorem State.setCore_mem (s : State) (c : CoreId) (k : Core) : (s.setCore c k).mem = s.mem := rfl
@[simp] theorem State.setCore_feEmpty (s : State) (c : CoreId) (k : Core) : (s.setCore c k).feEmpty = s.feEmpty := rfl
@[simp] theorem State.setCore_ecc (s : State) (c : CoreId) (k : Core) : (s.setCore c k).ecc = s.ecc := rfl
@[simp] theorem State.setCore_soft (s : State) (c : CoreId) (k : Core) : (s.setCore c k).soft = s.soft := rfl
@[simp] theorem State.setCore_clusters (s : State) (c : CoreId) (k : Core) : (s.setCore c k).clusters = s.clusters := rfl
@[simp] theorem State.setCore_walks (s : State) (c : CoreId) (k : Core) : (s.setCore c k).walks = s.walks := rfl
@[simp] theorem State.setCore_walkFails (s : State) (c : CoreId) (k : Core) : (s.setCore c k).walkFails = s.walkFails := rfl
@[simp] theorem State.setCore_net (s : State) (c : CoreId) (k : Core) : (s.setCore c k).net = s.net := rfl
@[simp] theorem State.setCore_nextId (s : State) (c : CoreId) (k : Core) : (s.setCore c k).nextId = s.nextId := rfl
@[simp] theorem State.setCore_cycle (s : State) (c : CoreId) (k : Core) : (s.setCore c k).cycle = s.cycle := rfl
@[simp] theorem State.setCore_free (s : State) (c : CoreId) (k : Core) : (s.setCore c k).free = s.free := rfl
@[simp] theorem State.setCore_cur (s : State) (c : CoreId) (k : Core) : (s.setCore c k).cur = s.cur := rfl
@[simp] theorem State.setCore_turns (s : State) (c : CoreId) (k : Core) : (s.setCore c k).turns = s.turns := rfl
@[simp] theorem State.setCore_agenda (s : State) (c : CoreId) (k : Core) : (s.setCore c k).agenda = s.agenda := rfl
@[simp] theorem State.modCore_parts (s : State) (c : CoreId) (f : Core → Core) : (s.modCore c f).parts = s.parts := rfl
@[simp] theorem State.modCore_pkg (s : State) (c : CoreId) (f : Core → Core) : (s.modCore c f).pkg = s.pkg := rfl
@[simp] theorem State.modCore_mem (s : State) (c : CoreId) (f : Core → Core) : (s.modCore c f).mem = s.mem := rfl
@[simp] theorem State.modCore_feEmpty (s : State) (c : CoreId) (f : Core → Core) : (s.modCore c f).feEmpty = s.feEmpty := rfl
@[simp] theorem State.modCore_ecc (s : State) (c : CoreId) (f : Core → Core) : (s.modCore c f).ecc = s.ecc := rfl
@[simp] theorem State.modCore_soft (s : State) (c : CoreId) (f : Core → Core) : (s.modCore c f).soft = s.soft := rfl
@[simp] theorem State.modCore_clusters (s : State) (c : CoreId) (f : Core → Core) : (s.modCore c f).clusters = s.clusters := rfl
@[simp] theorem State.modCore_walks (s : State) (c : CoreId) (f : Core → Core) : (s.modCore c f).walks = s.walks := rfl
@[simp] theorem State.modCore_walkFails (s : State) (c : CoreId) (f : Core → Core) : (s.modCore c f).walkFails = s.walkFails := rfl
@[simp] theorem State.modCore_net (s : State) (c : CoreId) (f : Core → Core) : (s.modCore c f).net = s.net := rfl
@[simp] theorem State.modCore_nextId (s : State) (c : CoreId) (f : Core → Core) : (s.modCore c f).nextId = s.nextId := rfl
@[simp] theorem State.modCore_cycle (s : State) (c : CoreId) (f : Core → Core) : (s.modCore c f).cycle = s.cycle := rfl
@[simp] theorem State.modCore_free (s : State) (c : CoreId) (f : Core → Core) : (s.modCore c f).free = s.free := rfl
@[simp] theorem State.modCore_cur (s : State) (c : CoreId) (f : Core → Core) : (s.modCore c f).cur = s.cur := rfl
@[simp] theorem State.modCore_turns (s : State) (c : CoreId) (f : Core → Core) : (s.modCore c f).turns = s.turns := rfl
@[simp] theorem State.modCore_agenda (s : State) (c : CoreId) (f : Core → Core) : (s.modCore c f).agenda = s.agenda := rfl

/-! ### Strands in slots -/

@[simp] theorem State.strandAt_putStrand (s : State) (c : CoreId) (n : Nat) (st : Strand) :
    (s.putStrand c n st).strandAt c n = some st := by
  simp [State.strandAt, State.putStrand]
theorem State.strandAt_putStrand_slot (s : State) (c : CoreId) {n m : Nat} (st : Strand) (h : m ≠ n) :
    (s.putStrand c n st).strandAt c m = s.strandAt c m := by
  simp [State.strandAt, State.putStrand, lookup_tblSet_ne _ _ h]
theorem State.strandAt_putStrand_core (s : State) {c d : CoreId} (n m : Nat) (st : Strand) (h : coreKey d ≠ coreKey c) :
    (s.putStrand c n st).strandAt d m = s.strandAt d m := by
  simp [State.strandAt, State.putStrand, State.core_modCore_ne _ _ h]
theorem State.core_putStrand_ne (s : State) {c d : CoreId} (n : Nat) (st : Strand) (h : coreKey d ≠ coreKey c) :
    (s.putStrand c n st).core d = s.core d := s.core_modCore_ne _ h
@[simp] theorem State.core_putStrand (s : State) (c : CoreId) (n : Nat) (st : Strand) :
    (s.putStrand c n st).core c = { s.core c with slots := tblSet (s.core c).slots n st } := by
  simp [State.putStrand]
@[simp] theorem State.strandAt_dropStrand (s : State) (c : CoreId) (n : Nat) : (s.dropStrand c n).strandAt c n = none := by
  simp [State.strandAt, State.dropStrand]
theorem State.strandAt_dropStrand_slot (s : State) (c : CoreId) {n m : Nat} (h : m ≠ n) :
    (s.dropStrand c n).strandAt c m = s.strandAt c m := by
  simp [State.strandAt, State.dropStrand, lookup_filter_ne _ h]
@[simp] theorem State.strandAt_enterSlot (s : State) (c : CoreId) (n : Nat) (st : Strand) :
    (s.enterSlot c n st).strandAt c n = some { st with floor := [] } := by
  simp [State.strandAt, State.enterSlot]

@[simp] theorem State.putStrand_parts (s : State) (c : CoreId) (n : Nat) (st : Strand) : (s.putStrand c n st).parts = s.parts := rfl
@[simp] theorem State.putStrand_pkg (s : State) (c : CoreId) (n : Nat) (st : Strand) : (s.putStrand c n st).pkg = s.pkg := rfl
@[simp] theorem State.putStrand_mem (s : State) (c : CoreId) (n : Nat) (st : Strand) : (s.putStrand c n st).mem = s.mem := rfl
@[simp] theorem State.putStrand_feEmpty (s : State) (c : CoreId) (n : Nat) (st : Strand) : (s.putStrand c n st).feEmpty = s.feEmpty := rfl
@[simp] theorem State.putStrand_ecc (s : State) (c : CoreId) (n : Nat) (st : Strand) : (s.putStrand c n st).ecc = s.ecc := rfl
@[simp] theorem State.putStrand_soft (s : State) (c : CoreId) (n : Nat) (st : Strand) : (s.putStrand c n st).soft = s.soft := rfl
@[simp] theorem State.putStrand_clusters (s : State) (c : CoreId) (n : Nat) (st : Strand) : (s.putStrand c n st).clusters = s.clusters := rfl
@[simp] theorem State.putStrand_walks (s : State) (c : CoreId) (n : Nat) (st : Strand) : (s.putStrand c n st).walks = s.walks := rfl
@[simp] theorem State.putStrand_walkFails (s : State) (c : CoreId) (n : Nat) (st : Strand) : (s.putStrand c n st).walkFails = s.walkFails := rfl
@[simp] theorem State.putStrand_net (s : State) (c : CoreId) (n : Nat) (st : Strand) : (s.putStrand c n st).net = s.net := rfl
@[simp] theorem State.putStrand_nextId (s : State) (c : CoreId) (n : Nat) (st : Strand) : (s.putStrand c n st).nextId = s.nextId := rfl
@[simp] theorem State.putStrand_cycle (s : State) (c : CoreId) (n : Nat) (st : Strand) : (s.putStrand c n st).cycle = s.cycle := rfl
@[simp] theorem State.putStrand_free (s : State) (c : CoreId) (n : Nat) (st : Strand) : (s.putStrand c n st).free = s.free := rfl
@[simp] theorem State.putStrand_cur (s : State) (c : CoreId) (n : Nat) (st : Strand) : (s.putStrand c n st).cur = s.cur := rfl
@[simp] theorem State.putStrand_turns (s : State) (c : CoreId) (n : Nat) (st : Strand) : (s.putStrand c n st).turns = s.turns := rfl
@[simp] theorem State.putStrand_agenda (s : State) (c : CoreId) (n : Nat) (st : Strand) : (s.putStrand c n st).agenda = s.agenda := rfl
@[simp] theorem State.dropStrand_parts (s : State) (c : CoreId) (n : Nat) : (s.dropStrand c n).parts = s.parts := rfl
@[simp] theorem State.dropStrand_pkg (s : State) (c : CoreId) (n : Nat) : (s.dropStrand c n).pkg = s.pkg := rfl
@[simp] theorem State.dropStrand_mem (s : State) (c : CoreId) (n : Nat) : (s.dropStrand c n).mem = s.mem := rfl
@[simp] theorem State.dropStrand_feEmpty (s : State) (c : CoreId) (n : Nat) : (s.dropStrand c n).feEmpty = s.feEmpty := rfl
@[simp] theorem State.dropStrand_ecc (s : State) (c : CoreId) (n : Nat) : (s.dropStrand c n).ecc = s.ecc := rfl
@[simp] theorem State.dropStrand_soft (s : State) (c : CoreId) (n : Nat) : (s.dropStrand c n).soft = s.soft := rfl
@[simp] theorem State.dropStrand_clusters (s : State) (c : CoreId) (n : Nat) : (s.dropStrand c n).clusters = s.clusters := rfl
@[simp] theorem State.dropStrand_walks (s : State) (c : CoreId) (n : Nat) : (s.dropStrand c n).walks = s.walks := rfl
@[simp] theorem State.dropStrand_walkFails (s : State) (c : CoreId) (n : Nat) : (s.dropStrand c n).walkFails = s.walkFails := rfl
@[simp] theorem State.dropStrand_net (s : State) (c : CoreId) (n : Nat) : (s.dropStrand c n).net = s.net := rfl
@[simp] theorem State.dropStrand_nextId (s : State) (c : CoreId) (n : Nat) : (s.dropStrand c n).nextId = s.nextId := rfl
@[simp] theorem State.dropStrand_cycle (s : State) (c : CoreId) (n : Nat) : (s.dropStrand c n).cycle = s.cycle := rfl
@[simp] theorem State.dropStrand_free (s : State) (c : CoreId) (n : Nat) : (s.dropStrand c n).free = s.free := rfl
@[simp] theorem State.dropStrand_cur (s : State) (c : CoreId) (n : Nat) : (s.dropStrand c n).cur = s.cur := rfl
@[simp] theorem State.dropStrand_turns (s : State) (c : CoreId) (n : Nat) : (s.dropStrand c n).turns = s.turns := rfl
@[simp] theorem State.dropStrand_agenda (s : State) (c : CoreId) (n : Nat) : (s.dropStrand c n).agenda = s.agenda := rfl
@[simp] theorem State.enterSlot_parts (s : State) (c : CoreId) (n : Nat) (st : Strand) : (s.enterSlot c n st).parts = s.parts := rfl
@[simp] theorem State.enterSlot_pkg (s : State) (c : CoreId) (n : Nat) (st : Strand) : (s.enterSlot c n st).pkg = s.pkg := rfl
@[simp] theorem State.enterSlot_mem (s : State) (c : CoreId) (n : Nat) (st : Strand) : (s.enterSlot c n st).mem = s.mem := rfl
@[simp] theorem State.enterSlot_feEmpty (s : State) (c : CoreId) (n : Nat) (st : Strand) : (s.enterSlot c n st).feEmpty = s.feEmpty := rfl
@[simp] theorem State.enterSlot_ecc (s : State) (c : CoreId) (n : Nat) (st : Strand) : (s.enterSlot c n st).ecc = s.ecc := rfl
@[simp] theorem State.enterSlot_soft (s : State) (c : CoreId) (n : Nat) (st : Strand) : (s.enterSlot c n st).soft = s.soft := rfl
@[simp] theorem State.enterSlot_clusters (s : State) (c : CoreId) (n : Nat) (st : Strand) : (s.enterSlot c n st).clusters = s.clusters := rfl
@[simp] theorem State.enterSlot_walks (s : State) (c : CoreId) (n : Nat) (st : Strand) : (s.enterSlot c n st).walks = s.walks := rfl
@[simp] theorem State.enterSlot_walkFails (s : State) (c : CoreId) (n : Nat) (st : Strand) : (s.enterSlot c n st).walkFails = s.walkFails := rfl
@[simp] theorem State.enterSlot_net (s : State) (c : CoreId) (n : Nat) (st : Strand) : (s.enterSlot c n st).net = s.net := rfl
@[simp] theorem State.enterSlot_nextId (s : State) (c : CoreId) (n : Nat) (st : Strand) : (s.enterSlot c n st).nextId = s.nextId := rfl
@[simp] theorem State.enterSlot_cycle (s : State) (c : CoreId) (n : Nat) (st : Strand) : (s.enterSlot c n st).cycle = s.cycle := rfl
@[simp] theorem State.enterSlot_free (s : State) (c : CoreId) (n : Nat) (st : Strand) : (s.enterSlot c n st).free = s.free := rfl
@[simp] theorem State.enterSlot_cur (s : State) (c : CoreId) (n : Nat) (st : Strand) : (s.enterSlot c n st).cur = s.cur := rfl
@[simp] theorem State.enterSlot_turns (s : State) (c : CoreId) (n : Nat) (st : Strand) : (s.enterSlot c n st).turns = s.turns := rfl
@[simp] theorem State.enterSlot_agenda (s : State) (c : CoreId) (n : Nat) (st : Strand) : (s.enterSlot c n st).agenda = s.agenda := rfl

/-! ### Partitions and packages -/

@[simp] theorem State.part_setPart (s : State) (p : Nat) (x : Partition) : (s.setPart p x).part p = some x := by
  simp [State.part, State.setPart]
theorem State.part_setPart_ne (s : State) {p q : Nat} (x : Partition) (h : q ≠ p) : (s.setPart p x).part q = s.part q := by
  simp [State.part, State.setPart, lookup_tblSet_ne _ _ h]
theorem State.part_modPart (s : State) (p : Nat) (f : Partition → Partition) : (s.modPart p f).part p = (s.part p).map f := by
  unfold State.modPart
  cases h : s.part p <;> simp [h]
@[simp] theorem State.core_setPart (s : State) (p : Nat) (x : Partition) (c : CoreId) : (s.setPart p x).core c = s.core c := rfl
@[simp] theorem State.setPart_pkg (s : State) (p : Nat) (x : Partition) : (s.setPart p x).pkg = s.pkg := rfl
@[simp] theorem State.setPart_mem (s : State) (p : Nat) (x : Partition) : (s.setPart p x).mem = s.mem := rfl
@[simp] theorem State.setPart_feEmpty (s : State) (p : Nat) (x : Partition) : (s.setPart p x).feEmpty = s.feEmpty := rfl
@[simp] theorem State.setPart_ecc (s : State) (p : Nat) (x : Partition) : (s.setPart p x).ecc = s.ecc := rfl
@[simp] theorem State.setPart_soft (s : State) (p : Nat) (x : Partition) : (s.setPart p x).soft = s.soft := rfl
@[simp] theorem State.setPart_clusters (s : State) (p : Nat) (x : Partition) : (s.setPart p x).clusters = s.clusters := rfl
@[simp] theorem State.setPart_walks (s : State) (p : Nat) (x : Partition) : (s.setPart p x).walks = s.walks := rfl
@[simp] theorem State.setPart_walkFails (s : State) (p : Nat) (x : Partition) : (s.setPart p x).walkFails = s.walkFails := rfl
@[simp] theorem State.setPart_net (s : State) (p : Nat) (x : Partition) : (s.setPart p x).net = s.net := rfl
@[simp] theorem State.setPart_nextId (s : State) (p : Nat) (x : Partition) : (s.setPart p x).nextId = s.nextId := rfl
@[simp] theorem State.setPart_cycle (s : State) (p : Nat) (x : Partition) : (s.setPart p x).cycle = s.cycle := rfl
@[simp] theorem State.setPart_free (s : State) (p : Nat) (x : Partition) : (s.setPart p x).free = s.free := rfl
@[simp] theorem State.setPart_cur (s : State) (p : Nat) (x : Partition) : (s.setPart p x).cur = s.cur := rfl
@[simp] theorem State.setPart_turns (s : State) (p : Nat) (x : Partition) : (s.setPart p x).turns = s.turns := rfl
@[simp] theorem State.setPart_agenda (s : State) (p : Nat) (x : Partition) : (s.setPart p x).agenda = s.agenda := rfl
@[simp] theorem State.setPart_cores (s : State) (p : Nat) (x : Partition) : (s.setPart p x).cores = s.cores := rfl
@[simp] theorem State.modPart_pkg (s : State) (p : Nat) (f : Partition → Partition) : (s.modPart p f).pkg = s.pkg := by
  unfold State.modPart; split <;> rfl
@[simp] theorem State.modPart_mem (s : State) (p : Nat) (f : Partition → Partition) : (s.modPart p f).mem = s.mem := by
  unfold State.modPart; split <;> rfl
@[simp] theorem State.modPart_feEmpty (s : State) (p : Nat) (f : Partition → Partition) : (s.modPart p f).feEmpty = s.feEmpty := by
  unfold State.modPart; split <;> rfl
@[simp] theorem State.modPart_ecc (s : State) (p : Nat) (f : Partition → Partition) : (s.modPart p f).ecc = s.ecc := by
  unfold State.modPart; split <;> rfl
@[simp] theorem State.modPart_soft (s : State) (p : Nat) (f : Partition → Partition) : (s.modPart p f).soft = s.soft := by
  unfold State.modPart; split <;> rfl
@[simp] theorem State.modPart_clusters (s : State) (p : Nat) (f : Partition → Partition) : (s.modPart p f).clusters = s.clusters := by
  unfold State.modPart; split <;> rfl
@[simp] theorem State.modPart_walks (s : State) (p : Nat) (f : Partition → Partition) : (s.modPart p f).walks = s.walks := by
  unfold State.modPart; split <;> rfl
@[simp] theorem State.modPart_walkFails (s : State) (p : Nat) (f : Partition → Partition) : (s.modPart p f).walkFails = s.walkFails := by
  unfold State.modPart; split <;> rfl
@[simp] theorem State.modPart_net (s : State) (p : Nat) (f : Partition → Partition) : (s.modPart p f).net = s.net := by
  unfold State.modPart; split <;> rfl
@[simp] theorem State.modPart_nextId (s : State) (p : Nat) (f : Partition → Partition) : (s.modPart p f).nextId = s.nextId := by
  unfold State.modPart; split <;> rfl
@[simp] theorem State.modPart_cycle (s : State) (p : Nat) (f : Partition → Partition) : (s.modPart p f).cycle = s.cycle := by
  unfold State.modPart; split <;> rfl
@[simp] theorem State.modPart_free (s : State) (p : Nat) (f : Partition → Partition) : (s.modPart p f).free = s.free := by
  unfold State.modPart; split <;> rfl
@[simp] theorem State.modPart_cur (s : State) (p : Nat) (f : Partition → Partition) : (s.modPart p f).cur = s.cur := by
  unfold State.modPart; split <;> rfl
@[simp] theorem State.modPart_turns (s : State) (p : Nat) (f : Partition → Partition) : (s.modPart p f).turns = s.turns := by
  unfold State.modPart; split <;> rfl
@[simp] theorem State.modPart_agenda (s : State) (p : Nat) (f : Partition → Partition) : (s.modPart p f).agenda = s.agenda := by
  unfold State.modPart; split <;> rfl
@[simp] theorem State.modPart_cores (s : State) (p : Nat) (f : Partition → Partition) : (s.modPart p f).cores = s.cores := by
  unfold State.modPart; split <;> rfl
@[simp] theorem State.core_modPart (s : State) (p : Nat) (f : Partition → Partition) (c : CoreId) :
    (s.modPart p f).core c = s.core c := by
  unfold State.modPart; split <;> rfl

/-! ### Counters and messages -/

@[simp] theorem State.count_parts (s : State) (c : CoreId) (i n : Nat) : (s.count c i n).parts = s.parts := rfl
@[simp] theorem State.count_pkg (s : State) (c : CoreId) (i n : Nat) : (s.count c i n).pkg = s.pkg := rfl
@[simp] theorem State.count_mem (s : State) (c : CoreId) (i n : Nat) : (s.count c i n).mem = s.mem := rfl
@[simp] theorem State.count_feEmpty (s : State) (c : CoreId) (i n : Nat) : (s.count c i n).feEmpty = s.feEmpty := rfl
@[simp] theorem State.count_ecc (s : State) (c : CoreId) (i n : Nat) : (s.count c i n).ecc = s.ecc := rfl
@[simp] theorem State.count_soft (s : State) (c : CoreId) (i n : Nat) : (s.count c i n).soft = s.soft := rfl
@[simp] theorem State.count_clusters (s : State) (c : CoreId) (i n : Nat) : (s.count c i n).clusters = s.clusters := rfl
@[simp] theorem State.count_walks (s : State) (c : CoreId) (i n : Nat) : (s.count c i n).walks = s.walks := rfl
@[simp] theorem State.count_walkFails (s : State) (c : CoreId) (i n : Nat) : (s.count c i n).walkFails = s.walkFails := rfl
@[simp] theorem State.count_net (s : State) (c : CoreId) (i n : Nat) : (s.count c i n).net = s.net := rfl
@[simp] theorem State.count_nextId (s : State) (c : CoreId) (i n : Nat) : (s.count c i n).nextId = s.nextId := rfl
@[simp] theorem State.count_cycle (s : State) (c : CoreId) (i n : Nat) : (s.count c i n).cycle = s.cycle := rfl
@[simp] theorem State.count_free (s : State) (c : CoreId) (i n : Nat) : (s.count c i n).free = s.free := rfl
@[simp] theorem State.count_cur (s : State) (c : CoreId) (i n : Nat) : (s.count c i n).cur = s.cur := rfl
@[simp] theorem State.count_turns (s : State) (c : CoreId) (i n : Nat) : (s.count c i n).turns = s.turns := rfl
@[simp] theorem State.count_agenda (s : State) (c : CoreId) (i n : Nat) : (s.count c i n).agenda = s.agenda := rfl
@[simp] theorem State.fpEvents_mem (s : State) (c : CoreId) (l : Option Nat) (fl : Flags) (k : Nat) :
    (s.fpEvents c l fl k).mem = s.mem := by
  unfold State.fpEvents; split <;> rfl
@[simp] theorem State.perf_mem (s : State) (c : CoreId) (e n : Nat) : (s.perf c e n).mem = s.mem := by
  unfold State.perf; dsimp only; split
  · rfl
  · split
    · rfl
    · split <;> rfl
@[simp] theorem State.perf_net (s : State) (c : CoreId) (e n : Nat) : (s.perf c e n).net = s.net := by
  unfold State.perf; dsimp only; split
  · rfl
  · split
    · rfl
    · split <;> rfl
@[simp] theorem State.send_mem (s : State) (a b : CoreId) (r : Bool) (t : Option Tag) (y : Body) : (s.send a b r t y).mem = s.mem := by
  unfold State.send; split <;> rfl
theorem State.send_net (s : State) (a b : CoreId) (r : Bool) (t : Option Tag) (y : Body) :
    (s.send a b r t y).net = s.net ++ [⟨s.nextId, a, b, r, t, 0, y⟩] := by
  unfold State.send; split <;> rfl
@[simp] theorem State.receive_mem (s : State) (i : Nat) (m : Msg) : (s.receive i m).mem = s.mem := by
  unfold State.receive; split <;> rfl
theorem State.receive_net (s : State) (i : Nat) (m : Msg) : (s.receive i m).net = dropAt s.net i := by
  unfold State.receive; split <;> rfl
theorem State.strandAt_send (s : State) (a b : CoreId) (r : Bool) (t : Option Tag) (y : Body) (c : CoreId) (n : Nat) :
    (s.send a b r t y).strandAt c n = s.strandAt c n := by
  unfold State.send
  split
  · rfl
  · by_cases h : coreKey c = coreKey a
    · simp [State.strandAt, State.core, State.modCore, State.setCore, h, Core.countSent]
    · simp only [State.strandAt]
      rw [State.core_modCore_ne _ _ h]
      rfl

/-! ### Trace records -/

/-- A trace record waits in its core for the end of the cycle: it changes that core alone (15 R447). -/
theorem State.trace_frame (s : State) (c : CoreId) (ty l a : Nat) :
    s.trace c ty l a = s ∨ ∃ f, s.trace c ty l a = s.modCore c f := by
  unfold State.trace
  split
  · exact .inl rfl
  · exact .inr ⟨_, rfl⟩
@[simp] theorem State.trace_mem (s : State) (c : CoreId) (ty l a : Nat) : (s.trace c ty l a).mem = s.mem := by
  obtain h | ⟨f, h⟩ := s.trace_frame c ty l a <;> simp [h]
@[simp] theorem State.trace_net (s : State) (c : CoreId) (ty l a : Nat) : (s.trace c ty l a).net = s.net := by
  obtain h | ⟨f, h⟩ := s.trace_frame c ty l a <;> simp [h]
@[simp] theorem State.trace_parts (s : State) (c : CoreId) (ty l a : Nat) : (s.trace c ty l a).parts = s.parts := by
  obtain h | ⟨f, h⟩ := s.trace_frame c ty l a <;> simp [h]
@[simp] theorem State.trace_pkg (s : State) (c : CoreId) (ty l a : Nat) : (s.trace c ty l a).pkg = s.pkg := by
  obtain h | ⟨f, h⟩ := s.trace_frame c ty l a <;> simp [h]

/-! ### Strands -/

@[simp] theorem Strand.setG_pc (st : Strand) (r : Reg) (v : Word) : (st.setG r v).pc = st.pc := rfl
@[simp] theorem Strand.setG_p (st : Strand) (r : Reg) (v : Word) : (st.setG r v).p = st.p := rfl
@[simp] theorem Strand.setG_fcw (st : Strand) (r : Reg) (v : Word) : (st.setG r v).fcw = st.fcw := rfl
@[simp] theorem Strand.setG_stat (st : Strand) (r : Reg) (v : Word) : (st.setG r v).stat = st.stat := rfl
@[simp] theorem Strand.reg_setG (st : Strand) (r : Reg) (v : Word) : (st.setG r v).reg r = v := by
  simp [Strand.reg, Strand.setG]
theorem Strand.reg_setG_ne (st : Strand) {r q : Reg} (v : Word) (h : q ≠ r) : (st.setG r v).reg q = st.reg q := by
  simp [Strand.reg, Strand.setG, Fin.val_ne_of_ne (Ne.symm h)]
@[simp] theorem Strand.pending_setG (st : Strand) (r : Reg) (v : Word) : (st.setG r v).pending r = .clear := by
  simp [Strand.pending, Strand.setG]
@[simp] theorem Strand.setPend_g (st : Strand) (r : Reg) (b : Pend) : (st.setPend r b).g = st.g := rfl
@[simp] theorem Strand.setP_g (st : Strand) (k : Fin 4) (b : Bool) : (st.setP k b).g = st.g := rfl
@[simp] theorem Strand.pred_setP (st : Strand) (k : Fin 4) (b : Bool) : (st.setP k b).pred k = b := by
  simp [Strand.pred, Strand.setP]
@[simp] theorem Strand.raise_g (st : Strand) (f : Flags) : (st.raise f).g = st.g := rfl
@[simp] theorem Strand.raise_stat (st : Strand) (f : Flags) : (st.raise f).stat = st.stat := rfl

/-- Continuing at an address changes the PC and the loop registers alone. -/
theorem loopEnd_frame (k : Nat) (st : Strand) (t : Word) :
    ∃ pc ldep loops, loopEnd k st t = { st with pc := pc, ldep := ldep, loops := loops } := by
  induction k generalizing st with
  | zero => exact ⟨t, st.ldep, st.loops, rfl⟩
  | succ k ih =>
    unfold loopEnd
    split
    · exact ⟨t, st.ldep, st.loops, rfl⟩
    · dsimp only
      split
      · split
        · exact ⟨_, _, _, rfl⟩
        · obtain ⟨a, b, d, h⟩ := ih { st with loops := _, ldep := st.ldep - 1 }
          exact ⟨a, b, d, h⟩
      · exact ⟨t, st.ldep, st.loops, rfl⟩
theorem Strand.goTo_frame (st : Strand) (t : Word) :
    ∃ pc ldep loops, st.goTo t = { st with pc := pc, ldep := ldep, loops := loops } := loopEnd_frame 4 st t

end Sys2Proof.Machine
end

