-- ==== Sys2Proof/Tests/Slice0.lean ====
section
/-! SUPPORT. Tests: ill-formed terms that WellFormed refuses, words written from the spec's encodings, a witness for the hypotheses of
every statement, and single instructions whose results the spec gives. -/
set_option Elab.async false
namespace Sys2Proof.Tests
open Sys2Proof Sys2Proof.Machine

/-! ### Sample states -/

/-- Core (0, 0), which runs the samples. -/
abbrev C : CoreId := ⟨0, 0, 0⟩
/-- A second core of its partition, LN 1. -/
abbrev D : CoreId := ⟨0, 0, 1⟩
/-- A strand of launch slot 0 with some registers and other changes. -/
def strand (g : List (Nat × Word)) (f : Strand → Strand) : Strand :=
  f { fetchStrand with g := g.foldl (fun v e => v.setIfInBounds e.1 e.2) fetchStrand.g, stat := { Stat.reset with priv := true },
                       chain := [0xC800] }
/-- A leaf of the sample's page that permits all accesses. -/
def sampleLeaf : Word := 0x102BF
/-- Core C with the strand in slot 0 and its turn, a leaf in the core's translation cache, and other changes to the core. -/
def sample (st : Strand) (h : Core → Core) : State :=
  { State.reset.placeFetch 16 0xC800 with cur := some (C, 0) }.modCore C
    (fun k => h { k with slots := [(0, st)], coreTlb := [{ fetchTlb with leaf := sampleLeaf }],
                         micTlb := k.micTlb.set 0 [{ fetchTlb with leaf := sampleLeaf }] })
/-- The same with core D in the partition. -/
def pair (st : Strand) (h hd : Core → Core) : State :=
  ((sample st h).modCore D (fun k => hd { k with cfg := { k.cfg with cls := .live, ln := 1, partcfg := wd (2 ^ 47) } })).modPart 0
    (fun x => { x with live := [C, D] })
/-- The state after a translation. -/
def trState : Tr → State | .ok _ _ s => s | .wait s => s | .fault _ s => s
def trOk (t : Tr) (pa : Nat) (leaf : Word) : Bool := match t with | .ok p l _ => p == pa && l == leaf | _ => false
def trFaults (t : Tr) (f : FaultInfo) : Bool := match t with | .fault g _ => decide (g = f) | _ => false
theorem tr_ok {t : Tr} {pa : Nat} {leaf : Word} (h : trOk t pa leaf = true) : t = .ok pa leaf (trState t) := by
  cases t <;> simp_all [trOk, trState]
theorem tr_fault {t : Tr} {f : FaultInfo} (h : trFaults t f = true) : t = .fault f (trState t) := by
  cases t <;> simp_all [trFaults, trState]
theorem noReds_of {s : State} {st : Strand}
    (h : s.cores.all (fun e => !e.2.merges.any (fun g => g.strands.contains st.uid)) = true) : s.noReds st := by
  have go : ∀ l : List (Nat × Core), l.all (fun e => !e.2.merges.any (fun g => g.strands.contains st.uid)) = true →
      ∀ k, (tblGet Core.reset l k).merges.any (fun g => g.strands.contains st.uid) = false := by
    intro l
    induction l with
    | nil => intro _ _; rfl
    | cons e t ih =>
      intro h k
      rw [List.all_cons, Bool.and_eq_true, Bool.not_eq_true'] at h
      simp only [tblGet]
      split
      · exact h.1
      · exact ih h.2 k
  exact fun d => go _ h _
theorem settled_of {s : State} {st : Strand} {far : Bool}
    (h : (s.quiet C st far && s.cores.all (fun e => !e.2.merges.any (fun g => g.strands.contains st.uid))) = true) :
    s.settled C st far := by
  rw [Bool.and_eq_true] at h
  exact ⟨h.1, noReds_of h.2⟩
theorem home_of {s : State} {h : CoreId} {leaf : Word} {log : Bool}
    (hyp : Memory.wf s.mem = true ∧ (s.core h).merges = [] ∧ (s.core h).waiters = [] ∧ s.ecc = [] ∧ lfMirror leaf = false ∧ log = false ∧
      ∀ i ∈ List.range 2, bitAt ((s.core h).dbg.watch.toList.getD i (0, 0)).1 63 = false) : CalmHome s h leaf log := by
  obtain ⟨wf, merges, waiters, clean, mirror, unlogged, watch⟩ := hyp
  exact ⟨wf, merges, waiters, clean, mirror, unlogged, fun i hi => watch i (by simpa using hi)⟩
/-- The next state of an outcome. -/
def nextOf (s : State) : Out → State | .next t => t | _ => s

/-- A strand that is ready with every register final. -/
def T0 : Strand := strand [(2, 5), (3, 7), (4, 0x10000)] id
def S0 : State := sample T0 id

theorem ready_of {s : State} {c : CoreId} {n : Nat} {st : Strand} {g : Guard} {rs : List Reg}
    (h : s.curStrand = some (c, n, st) ∧ guardHolds st g = true ∧ (∀ r ∈ rs, st.pending r = .clear) ∧ st.stat.qbound = false) :
    Ready s c n st g rs := by
  obtain ⟨turn, guard, final, noQueue⟩ := h
  exact ⟨turn, guard, final, noQueue⟩

theorem test_ready : Ready S0 C 0 T0 .none [0, 1, 2, 3, 4, 5, 6, 7, 8, 9, 10, 11, 12, 13, 14, 15] := ready_of (by decide +kernel)

/-! ### Witnesses: each theorem shows a state and operands that meet the hypotheses of a statement, for each of its clauses -/

/-- The integer statements, the special registers, and a false guard ask for a ready strand only. -/
theorem test_witness_IntegerRegisterResults : Ready S0 C 0 T0 .none [2, 3, 1] ∧ Ready S0 C 0 T0 .none [2, 1] :=
  ⟨ready_of (by decide +kernel),
   ready_of (by decide +kernel)⟩

/-- A field at the top bit that reaches beyond the word: POS = 63, LEN = 127. -/
def Tf : Strand := strand [(2, 5), (3, 0x7F3F)] id
theorem test_witness_IntegerImmediateAndFieldResults :
    Ready S0 C 0 T0 .none [2, 1] ∧ Ready (sample Tf id) C 0 Tf .none [2, 3, 1] ∧ (Tf.reg 3).toNat % 64 = 63 ∧
      (Tf.reg 3).toNat / 2 ^ 8 % 128 = 127 :=
  ⟨ready_of (by decide +kernel),
   ready_of (by decide +kernel), by decide +kernel, by decide +kernel⟩

theorem test_witness_ComparesWriteOnePredicate : Ready S0 C 0 T0 .none [2, 3] ∧ intCmp ≠ [] ∧ intCmpI ≠ [] :=
  ⟨ready_of (by decide +kernel), by simp [intCmp], by simp [intCmpI]⟩

theorem test_witness_FloatResults :
    Ready S0 C 0 T0 .none [2, 3, 4, 1] ∧ isVN .f32 (T0.lo32 2) = false ∧ isVN .f32 (T0.lo32 3) = false ∧
      isVN .f32 (T0.lo32 4) = false ∧ isVN .bf16 ((T0.reg 2).toNat % 2 ^ 16) = false :=
  ⟨ready_of (by decide +kernel), by decide +kernel, by decide +kernel,
   by decide +kernel, by decide +kernel⟩

/-- Verdict NaNs at both ends of their range of patterns. -/
def Tv : Strand := strand [(2, 0x7FA00000), (3, 0x7FBFFFFF), (4, 0x3F800000)] id
theorem test_witness_VerdictNaNOperandFaults :
    Ready (sample Tv id) C 0 Tv .none [2, 3, 4, 1] ∧ isVN .f32 (Tv.lo32 2) = true ∧ isVN .f32 (Tv.lo32 3) = true ∧
      isVN .f32 (Tv.lo32 4) = false :=
  ⟨ready_of (by decide +kernel), by decide +kernel, by decide +kernel,
   by decide +kernel⟩

theorem test_witness_SpecialRegisterReadsAndWrites :
    Ready S0 C 0 T0 .none [1] ∧ 0x25 ∈ specialNumbers :=
  ⟨ready_of (by decide +kernel), by decide +kernel⟩

theorem test_witness_FalseGuardHasNoEffect :
    guardOf (.add ⟨.p0, 1, 2, 3⟩) = some .p0 ∧ S0.curStrand = some (C, 0, T0) ∧ guardHolds T0 .p0 = false :=
  ⟨rfl, by decide +kernel, by decide +kernel⟩

/-- A strand without privilege. -/
def Tu : Strand := strand [] (fun st => { st with stat := Stat.reset })
theorem test_witness_PrivilegedMembersFault :
    privilegedInfo (.halt ⟨.none⟩) = some 328707 ∧ guardOf (.halt ⟨.none⟩) = some .none ∧
      (sample Tu id).curStrand = some (C, 0, Tu) ∧ guardHolds Tu .none = true ∧ Tu.stat.priv = false :=
  ⟨rfl, rfl, by decide +kernel, by decide +kernel, by decide +kernel⟩

/-- Register 2 is LOAD-pending and register 3 HANDLE-pending. -/
def Tp : Strand := strand [] (fun st => (st.setPend 2 .load).setPend 3 .handle)
theorem test_witness_PendingRegistersAtIssue :
    (sample Tp id).curStrand = some (C, 0, Tp) ∧ Tp.isPort 2 = false ∧ Tp.pending 2 = .load ∧ guardHolds Tp .none = true ∧
      Tp.stat.qbound = false ∧ Tp.pending 3 = .handle ∧ Tp.pending 1 ≠ .load := by decide +kernel

/-- Strands in no loop, in three and in four levels, and a count in a register. -/
def Tl (d : Nat) : Strand := strand [(2, 0x10003), (3, 0), (4, 9), (5, 0x10002)] (fun st =>
  { st with ldep := d, loops := st.loops.set 0 { ls := 0x10000, le := 0x10010, lc := 1 } })
theorem test_witness_ControlFlowResultsAndFaults :
    Ready (sample (Tl 0) id) C 0 (Tl 0) .none [2, 3, 4, 5] ∧ Ready (sample (Tl 3) id) C 0 (Tl 3) .none [4] ∧
      Ready (sample (Tl 4) id) C 0 (Tl 4) .none [4] ∧ ((Tl 0).reg 5).getLsbD 0 = false ∧ ((Tl 0).reg 2).getLsbD 0 = true ∧
      (Tl 0).reg 3 = 0 ∧ (Tl 3).reg 4 ≠ 0 ∧ (Tl 3).ldep < 4 ∧ 4 ≤ (Tl 4).ldep ∧ (Tl 0).ldep = 0 ∧ 0 < (Tl 3).ldep :=
  ⟨ready_of (by decide +kernel),
   ready_of (by decide +kernel),
   ready_of (by decide +kernel), by decide +kernel, by decide +kernel,
   by decide +kernel, by decide +kernel, by decide +kernel, by decide +kernel, by decide +kernel, by decide +kernel⟩

theorem test_witness_LoopEndStep :
    (Tl 4).ldep ≤ 4 ∧ (Tl 0).ldep = 0 ∧ 0 < (Tl 1).ldep ∧ ((Tl 1).loops.getD 0 Loop.reset).le = 0x10010 ∧
      ((Tl 1).loops.getD 0 Loop.reset).lc = 1 ∧ ((Tl 2).loops.getD 1 Loop.reset).lc ≠ 1 := by decide +kernel

/-- A strand of launch slot 0. -/
def Ts : Strand := strand [] (fun st => { st with lslot := some 0 })
theorem test_witness_FaultRecordOfAStrand : Ts.lslot = some 0 ∧ (fIllegal 0xFF 0 0).reason < 256 := by decide +kernel

/-- A context with a handler, one without, and a handler. -/
def Sh : State := sample T0 (fun k => { k with hpairs := [(8, (0x10100, 3))] })
def Th : Strand := strand [] (fun st => { st with handlerOf := some 1 })
theorem test_witness_TrapEntersTheHandlerOrFaults :
    Ready Sh C 0 T0 .none [] ∧ (31 < 32 ∧ T0.handlerOf = none ∧ (Sh.handlerPair C T0).1 ≠ 0 ∧ T0.posts = [] ∧ T0.lds = [] ∧
      (Sh.core C).vectorOpen T0.uid = false) ∧ Ready S0 C 0 T0 .none [] ∧ (S0.handlerPair C T0).1 = 0 ∧
      Ready (sample Th id) C 0 Th .none [] ∧ Th.handlerOf ≠ none :=
  ⟨ready_of (by decide +kernel), by decide +kernel,
   ready_of (by decide +kernel), by decide +kernel,
   ready_of (by decide +kernel), by decide +kernel⟩


theorem local_of {s : State} {st : Strand} {form : Form} {base : Word} {off : Int} {kind z : Nat} {info : Word} {pa : Nat} {leaf : Word}
    (h : trOk (s.resolve (scalarCtx C 0 st) st form base off kind info) pa leaf = true)
    (h2 : homeOf pa = C ∧ isHost pa = false ∧ inControl (offOf pa) = false ∧ pa % z = 0 ∧ lfMirror leaf = false ∧ st.lds = [] ∧
      st.posts = [] ∧ st.trap = none)
    (h3 : let t := trState (s.resolve (scalarCtx C 0 st) st form base off kind info)
      Memory.wf t.mem = true ∧ t.ecc = [] ∧ (t.core C).merges = [] ∧ (t.core C).waiters = []) :
    Local s C 0 st form base off kind z info pa leaf (trState (s.resolve (scalarCtx C 0 st) st form base off kind info)) :=
  by
  obtain ⟨home, device, plain, aligned, mirror, lds, posts, trap⟩ := h2
  obtain ⟨wf, clean, merges, waiters⟩ := h3
  exact ⟨wf, tr_ok h, home, device, plain, aligned, mirror, clean, merges, waiters, lds, posts, trap⟩
theorem quiet_of {s : State} {st : Strand}
    (h : st.stat.log = false ∧ ∀ i ∈ List.range 2, bitAt ((s.core C).dbg.watch.toList.getD i (0, 0)).1 63 = false) :
    s.quietWrites C st := ⟨h.1, fun i hi => h.2 i (by simpa using hi)⟩

/-- The last doubleword of the page, FULL in S0 and EMPTY in Se. -/
def Se : State := { S0 with feEmpty := [0x1FFF] }
def afterTr (s : State) (st : Strand) (off : Int) (kind info : Nat) : State :=
  trState (s.resolve (scalarCtx C 0 st) st .va (st.reg 4) off kind (BitVec.ofNat 64 info))

theorem test_witness_LoadsReadTheirBytes :
    Ready S0 C 0 T0 .none [4, 1] ∧
    Local S0 C 0 T0 .va (T0.reg 4) (8191 * 8) 1 8 (BitVec.ofNat 64 (256 * 12)) 0x1FFF8 0x102BF (afterTr S0 T0 (8191 * 8) 1 (256 * 12)) ∧
    Local S0 C 0 T0 .va (T0.reg 4) (65535 * 1) 1 1 (BitVec.ofNat 64 (256 * 13)) 0x1FFFF 0x102BF
      (afterTr S0 T0 (65535 * 1) 1 (256 * 13)) ∧
    FeAllowed .va 0x1FFF8 0x102BF ∧ (afterTr S0 T0 (8191 * 8) 1 (256 * 12)).full 0x1FFF8 = true ∧
    (afterTr S0 T0 (8191 * 8) 1 (256 * 12)).quietWrites C T0 ∧ Ready Se C 0 T0 .none [4, 1] ∧
    Local Se C 0 T0 .va (T0.reg 4) (8191 * 8) 1 8 (BitVec.ofNat 64 (256 * 12)) 0x1FFF8 0x102BF (afterTr Se T0 (8191 * 8) 1 (256 * 12)) ∧
    (afterTr Se T0 (8191 * 8) 1 (256 * 12)).full 0x1FFF8 = false :=
  ⟨ready_of (by decide +kernel), local_of (by decide +kernel) (by decide +kernel) (by decide +kernel),
   local_of (by decide +kernel) (by decide +kernel) (by decide +kernel), Or.inr (by decide +kernel), by decide +kernel,
   quiet_of (by decide +kernel), ready_of (by decide +kernel),
   local_of (by decide +kernel) (by decide +kernel) (by decide +kernel), by decide +kernel⟩

theorem test_witness_StoresWriteTheirBytes :
    Ready S0 C 0 T0 .none [4, 1] ∧
    Local S0 C 0 T0 .va (T0.reg 4) (8191 * 8) 2 8 (BitVec.ofNat 64 (256 * 14)) 0x1FFF8 0x102BF (afterTr S0 T0 (8191 * 8) 2 (256 * 14)) ∧
    (afterTr S0 T0 (8191 * 8) 2 (256 * 14)).quietWrites C T0 ∧ FeAllowed .va 0x1FFF8 0x102BF ∧
    (afterTr S0 T0 (8191 * 8) 2 (256 * 14)).settled C T0 false ∧ Ready Se C 0 T0 .none [4, 1] ∧
    Local Se C 0 T0 .va (T0.reg 4) (8191 * 8) 2 8 (BitVec.ofNat 64 (256 * 14)) 0x1FFF8 0x102BF (afterTr Se T0 (8191 * 8) 2 (256 * 14)) ∧
    (afterTr Se T0 (8191 * 8) 2 (256 * 14)).quietWrites C T0 ∧ (afterTr Se T0 (8191 * 8) 2 (256 * 14)).full 0x1FFF8 = false :=
  ⟨ready_of (by decide +kernel), local_of (by decide +kernel) (by decide +kernel) (by decide +kernel), quiet_of (by decide +kernel),
   Or.inr (by decide +kernel), settled_of (by decide +kernel), ready_of (by decide +kernel),
   local_of (by decide +kernel) (by decide +kernel) (by decide +kernel), quiet_of (by decide +kernel), by decide +kernel⟩

theorem test_witness_LdsLeavesItsDestinationPending :
    Ready S0 C 0 T0 .none [4, 1] ∧
    Local S0 C 0 T0 .va (T0.reg 4) (8191 * 8) 1 8 (BitVec.ofNat 64 (256 * 15)) 0x1FFF8 0x102BF (afterTr S0 T0 (8191 * 8) 1 (256 * 15)) ∧
    FeAllowed .va 0x1FFF8 0x102BF ∧ (afterTr S0 T0 (8191 * 8) 1 (256 * 15)).full 0x1FFF8 = true ∧
    (afterTr S0 T0 (8191 * 8) 1 (256 * 15)).quietWrites C T0 :=
  ⟨ready_of (by decide +kernel), local_of (by decide +kernel) (by decide +kernel) (by decide +kernel), Or.inr (by decide +kernel),
   by decide +kernel, quiet_of (by decide +kernel)⟩

theorem test_witness_AtomicsReadAndWrite :
    wdSize .d = true ∧ wdSize .w = true ∧ Ready S0 C 0 T0 .none [4, 2, 3, 1] ∧
    Local S0 C 0 T0 .va (T0.reg 4) 0 4 8 (BitVec.ofNat 64 (256 * 16 + 0)) 0x10000 0x102BF (afterTr S0 T0 0 4 (256 * 16 + 0)) ∧
    Local S0 C 0 T0 .va (T0.reg 4) 0 4 4 (BitVec.ofNat 64 (256 * 16 + 1)) 0x10000 0x102BF (afterTr S0 T0 0 4 (256 * 16 + 1)) ∧
    (afterTr S0 T0 0 4 (256 * 16)).quietWrites C T0 ∧ (afterTr S0 T0 0 4 (256 * 16 + 1)).quietWrites C T0 ∧
    (afterTr S0 T0 0 4 (256 * 16)).settled C T0 false ∧ (afterTr S0 T0 0 4 (256 * 16 + 1)).settled C T0 false :=
  ⟨rfl, rfl, ready_of (by decide +kernel), local_of (by decide +kernel) (by decide +kernel) (by decide +kernel),
   local_of (by decide +kernel) (by decide +kernel) (by decide +kernel), quiet_of (by decide +kernel), quiet_of (by decide +kernel),
   settled_of (by decide +kernel), settled_of (by decide +kernel)⟩

theorem test_witness_ReductionsOpenAMergeGroup :
    wdSize .w = true ∧ (RedOp.isFp .fadd = true ∧ (decFp .f32 (T0.lo32 3)).isNaN = false) ∧ Ready S0 C 0 T0 .none [4, 3] ∧
    Local S0 C 0 T0 .va (T0.reg 4) 0 5 4 (BitVec.ofNat 64 (256 * 17 + 8 % 4)) 0x10000 0x102BF (afterTr S0 T0 0 5 (256 * 17 + 8 % 4)) ∧
    (afterTr S0 T0 0 5 (256 * 17 + 8 % 4)).settled C T0 false :=
  ⟨rfl, by decide +kernel, ready_of (by decide +kernel), local_of (by decide +kernel) (by decide +kernel) (by decide +kernel),
   settled_of (by decide +kernel)⟩

/-- The word holds 0xC800: WAITEQ with 0xC800 holds, with 5 it does not; a limit of 0 is due, one of 7 is not. -/
def Tw : Strand := strand [(2, 0xC800), (3, 7), (4, 0x10000), (5, 5)] id
theorem test_witness_WaitsOnAWord :
    Ready (sample Tw id) C 0 Tw .none [4, 2, 5, 3] ∧
    Local (sample Tw id) C 0 Tw .va (Tw.reg 4) 0 1 8 (BitVec.ofNat 64 (256 * 23 + 0)) 0x10000 0x102BF
      (afterTr (sample Tw id) Tw 0 1 (256 * 23 + 0)) ∧
    Local (sample Tw id) C 0 Tw .va (Tw.reg 4) 0 1 8 (BitVec.ofNat 64 (256 * 23 + 3)) 0x10000 0x102BF
      (afterTr (sample Tw id) Tw 0 1 (256 * 23 + 3)) ∧
    ofLe (memRead (afterTr (sample Tw id) Tw 0 1 (256 * 23 + 0)).mem 0x10000 8) = (Tw.reg 2).toNat ∧
    ofLe (memRead (afterTr (sample Tw id) Tw 0 1 (256 * 23 + 0)).mem 0x10000 8) ≠ (Tw.reg 5).toNat ∧
    (let s' := afterTr (sample Tw id) Tw 0 1 (256 * 23 + 0)
     s'.isDue ((sample Tw id).limitAt Tw (Tw.reg 6)) = true ∧ Tw.stat.wtrap = false ∧
       s'.isDue ((sample Tw id).limitAt Tw (Tw.reg 3)) = false) ∧
    (let s' := afterTr (sample Tw id) Tw 0 1 (256 * 23 + 3)
     s'.isDue ((sample Tw id).limitAt Tw (Tw.reg 6)) = true ∧ s'.isDue ((sample Tw id).limitAt Tw (Tw.reg 3)) = false) :=
  ⟨ready_of (by decide +kernel), local_of (by decide +kernel) (by decide +kernel) (by decide +kernel),
   local_of (by decide +kernel) (by decide +kernel) (by decide +kernel), by decide +kernel, by decide +kernel, by decide +kernel,
   by decide +kernel⟩

/-- The strand has reserved slot 16 for its child. -/
def Tnest : Strand := { T0 with nest := some 16 }
/-- A child's slot is free, nothing is outstanding, and a coat waits in the cloakroom of the second sample. -/
def coat0 : Coat := { st := { T0 with uid := 9 }, op := none, src := D, entry := 0, dst := C, fwd := 0, bounce := 0, needDesc := false,
                      needAnnex := false, place := 32, mark := .clean, keepPrev := false, vec := none }
def Sc : State := sample T0 (fun k => { k with cloak := [coat0] })
theorem test_witness_StrandsBeginAndEnd :
    Ready S0 C 0 T0 .none [] ∧ (S0.core C).room = some 16 ∧ (T0.jw = 0 ∧ T0.nest = none ∧ (∀ r, T0.pending r ≠ .load)) ∧
    S0.settled C T0 false ∧ (Ready (sample Tnest id) C 0 Tnest .none [] ∧ (Tnest.nest = some 16 ∧ 16 ≠ 0) ∧ (sample Tnest id).settled C Tnest false) ∧
    S0.settled C T0 true ∧ ((S0.core C).vectorOpen T0.uid = false ∧ T0.handlerOf = none ∧ T0.vctx = none ∧ T0.qb = none ∧
      (S0.core C).rescue = none ∧ (S0.core C).cloak = [] ∧ T0.lslot = none) ∧
    (Ready (sample Ts id) C 0 Ts .none [] ∧ (sample Ts id).settled C Ts true ∧ Ts.lslot = some 0 ∧ Ts.spawned = false ∧
      (sample Ts id).lnCore ((sample Ts id).partOf C) Ts.cln = some C) ∧
    (Ready Sc C 0 T0 .none [] ∧ (Sc.core C).cloak = coat0 :: [] ∧
      T0.handlerOf = none ∧ (Sc.core C).vectorOpen T0.uid = false ∧ coat0.st.isStopped = false ∧ coat0.mark ≠ .double ∧
      0 + ((Sc.core C).heldPlaces.filter (· = 32)).length < (Sc.core C).cloakDepth) :=
  ⟨ready_of (by decide +kernel), by decide +kernel, by decide +kernel, settled_of (by decide +kernel),
   ⟨ready_of (by decide +kernel), by decide +kernel, settled_of (by decide +kernel)⟩, settled_of (by decide +kernel), by decide +kernel,
   ⟨ready_of (by decide +kernel), settled_of (by decide +kernel), by decide +kernel⟩, ⟨ready_of (by decide +kernel), by decide +kernel⟩⟩

/-- A copy that waits in record 0 under sequence 5, and one that ended in record 1 under 6. -/
def copy0 : CopyJob := { word := 0, src := 0x10000, dst := 0x10800, sform := 0, dform := 0, fill := false, pub := false, bcben := false, bcb := 0,
                         ring := 0, len := 128, landed := 0, sent := 0, started := false, resume := 0 }
def rec0 (j : Job) (st : RecState) : Record :=
  { seq := 5, asid := 0, lslot := none, sid := 0, log := false, priv := true, gang := 0, origin := C, cln := 0, prio := false,
    order := 0, deps := [], state := st, cancel := false, held := false, job := j }
def withCopy (k : Core) : Core :=
  { k with records := [(0, rec0 (.copy copy0) .waitdep)],
           board := [(0, { seq := 5, active := true, ends := [] }), (1, { seq := 6, active := false, ends := [(6, .done, 3, 0)] })] }
def Tq : Strand := strand [(2, mkHandle 0 0 0 5), (3, mkHandle 0 0 1 6), (4, mkHandle 2 0 0 0), (5, mkHandle 1 0 0 5)] id
def Sq : State := sample Tq withCopy
/-- An update of a mirror that is under way. -/
def mirror0 : Msg := { id := 0, src := C, dst := D, isReturn := false, tag := none, fwd := 0, body := .mirrorUpdate 0 1 [] [Tq.uid] }
theorem test_witness_FuturesAndFences :
    Ready Sq C 0 Tq .none [6] ∧ Tq.pending 2 ≠ .load ∧ Sq.handleLocal C (Tq.reg 2) = true ∧ Sq.handleLocal C (Tq.reg 3) = true ∧
    (Sq.boardState (Sq.partOf C) (Tq.reg 2)).1 = 0 ∧ (Sq.boardState (Sq.partOf C) (Tq.reg 3)).1 = 2 ∧
    2 ≤ (Tq.reg 4).toNat / 2 ^ 62 ∧ (Tq.reg 5).toNat / 2 ^ 62 = 1 ∧
    Sq.lnCore (Sq.partOf C) ((Tq.reg 5).toNat / 2 ^ 46 % 65536) = some C ∧ Tq.lds = [] ∧ Tq.posts = [] ∧
    Sq.noReds Tq ∧ Sq.mirrorsOpen Tq.uid = false ∧ State.mirrorsOpen { Sq with net := [mirror0] } Tq.uid = true :=
  ⟨ready_of (by decide +kernel), by decide +kernel, by decide +kernel, by decide +kernel, by decide +kernel, by decide +kernel,
   by decide +kernel, by decide +kernel, by decide +kernel, by decide +kernel, by decide +kernel, noReds_of (by decide +kernel),
   by decide +kernel, by decide +kernel⟩

def Tpl : Strand := { T0 with pend := T0.pend.set 15 .load }
theorem test_witness_QueryResults :
    ((sample Tpl id).curStrand = some (C, 0, Tpl) ∧ guardHolds Tpl .none = true ∧ Tpl.stat.qbound = false ∧ Tpl.pending 15 = .load) ∧
    S0.curStrand = some (C, 0, T0) ∧ guardHolds T0 .none = true ∧ T0.stat.qbound = false ∧ T0.pending 15 ≠ .load := by decide +kernel

/-! Vector instructions: context 3 with some elements, and queues of the core. -/
def ctx (t : Elem) (vl : Nat) (v : List (Nat × Nat)) : VecCtx :=
  { owner := fetchStrand.uid, v := v, m := #v[BitVec.allOnes 256, 1, 0, 0], vl := vl, ty := t, blen := 16, vdm := 0, vdmpc := 0 }
def Tc : Strand := strand [(2, 0x3F800000), (4, 0x10000)] (fun st =>
  { st with vctx := some 3, stat := { Stat.reset with vbound := true } })
def vsample (st : Strand) (x : VecCtx) (h : Core → Core) : State := sample st (fun k => h { k with vctx := [(3, x)] })
theorem room_of {s : State} {n : Nat} {st : Strand}
    (h : ((s.core C).vq (n / 16)).length < 8 ∧ (s.core C).vPoisoned st.uid = false) : s.vecRoom C n st := h
theorem vready_of {s : State} {c : CoreId} {n : Nat} {st : Strand} {i : Nat} {x : VecCtx} {g : Guard} {rs : List Reg}
    (h : s.curStrand = some (c, n, st) ∧ guardHolds st g = true ∧ n < 32 ∧ (s.core c).has 1 = true ∧ st.vctx = some i ∧
      List.lookup i (s.core c).vctx = some x ∧ (∀ r ∈ rs, st.pending r = .clear) ∧ st.stat.qbound = false)
    (h2 : st.hold = none) : VReady s c n st i x g rs :=
  by
  obtain ⟨turn, guard, slot, unit, bound, holds, final, noQueue⟩ := h
  exact ⟨turn, guard, slot, unit, bound, holds, final, noQueue, h2⟩
theorem noVerdict_of {x : VecCtx} {m : Option (Fin 4)} {t : Elem} {r : Reg}
    (h : (match elemFmt t with
      | none => true
      | some f => (List.range 256).all (fun j => !x.isActive m j || !isVN f (x.elem t r j))) = true) : x.noVerdict m t r := by
  intro f hf j hj ha
  rw [hf] at h
  simp only [List.all_eq_true, List.mem_range, Bool.or_eq_true, Bool.not_eq_true'] at h
  rcases h j hj with h | h
  · simp [ha] at h
  · exact h

def xf : VecCtx := ctx .f32 256 [(256, 0x3F800000), (511, 0xBF800000), (512, 0x40000000), (1024, 0x3F800000)]
def xi : VecCtx := ctx .i32 256 [(256, 7), (511, 0x80000000)]
def xt : VecCtx := ctx .t8 32 [(256, 0x3F800000)]
/-- Element 0 of v1 is a verdict NaN. -/
def xv : VecCtx := ctx .f32 16 [(256, 0x7FA00000)]
theorem test_witness_VectorElementResults :
    (vsample Tc xf id).vecRoom C 0 Tc ∧ VReady (vsample Tc xf id) C 0 Tc 3 xf .none [2] ∧ xf.noVerdict none .f32 1 ∧
    xf.noVerdict none .f32 2 ∧ xf.noVerdict none .f32 4 ∧ isVN .f32 ((Tc.reg 2).toNat % 2 ^ 32) = false ∧
    (vsample Tc xi id).vecRoom C 0 Tc ∧ VReady (vsample Tc xi id) C 0 Tc 3 xi .none [2] ∧ Elem.i32 ∈ typesShift ∧ Elem.i32 ∈ typesAll ∧
    Elem.f32 ∈ typesArith :=
  ⟨room_of (by decide +kernel), vready_of (by decide +kernel) rfl, noVerdict_of (by decide +kernel), noVerdict_of (by decide +kernel),
   noVerdict_of (by decide +kernel), by decide +kernel, room_of (by decide +kernel), vready_of (by decide +kernel) rfl, by decide +kernel,
   by decide +kernel, by decide +kernel⟩

theorem test_witness_VectorMaskAndListResults :
    (vsample Tc xf id).vecRoom C 0 Tc ∧ VReady (vsample Tc xf id) C 0 Tc 3 xf .none [] ∧ xf.noVerdict none .f32 1 ∧
    xf.noVerdict none .f32 2 ∧ Elem.f32 ∈ typesArith ∧ (vsample Tc xt id).vecRoom C 0 Tc ∧
    VReady (vsample Tc xt id) C 0 Tc 3 xt .none [] ∧ Elem.t8 ∈ typesTaper ∧ xt.noVerdict none .f32 1 ∧ (4 : Reg).val % 2 = 0 :=
  ⟨room_of (by decide +kernel), vready_of (by decide +kernel) rfl, noVerdict_of (by decide +kernel), noVerdict_of (by decide +kernel),
   by decide +kernel, room_of (by decide +kernel), vready_of (by decide +kernel) rfl, by decide +kernel, noVerdict_of (by decide +kernel),
   by decide +kernel⟩

/-- Queue entries of the strand: with chunks left, with a poison, and granted. -/
def qe (chunks granted : Nat) (poison : Option (Nat × Nat)) (holding : Bool) : VQEntry :=
  ⟨0, Tc.uid, Tc.pc, chunks, granted, Flags.none, 0, poison, holding⟩
def queued (q : List VQEntry) (k : Core) : Core := { k with vqueue := #v[q, []] }
theorem test_witness_VectorQueuesAndGrants :
    (VReady (vsample Tc xv (queued (List.replicate 8 (qe 1 0 none false)))) C 0 Tc 3 xv .none [] ∧
      8 ≤ (((vsample Tc xv (queued (List.replicate 8 (qe 1 0 none false)))).core C).vq 0).length) ∧
    (VReady (vsample Tc xv id) C 0 Tc 3 xv .none [] ∧ (vsample Tc xv id).vecRoom C 0 Tc ∧ xv.isActive none 0 = true ∧
      isVN .f32 (xv.elem .f32 1 0) = true) ∧
    (let k : Core := { Core.reset with vqueue := #v[[qe 1 0 none false], [qe 1 0 none false]] }
     vqHead (k.vq 0) 0 = some (0, qe 1 0 none false) ∧ vqHead (k.vq 1) 0 = some (0, qe 1 0 none false)) ∧
    (let s := vsample Tc xv (queued [qe 16 15 none false])
     (s.core C).vq 0 = [qe 16 15 none false] ∧ (s.core C).vq 1 = [] ∧ 15 < 16) ∧
    (let s := vsample Tc xv (queued [qe 1 0 (some (0, 0x7FA00000)) false])
     (s.core C).vq 0 = [qe 1 0 (some (0, 0x7FA00000)) false] ∧ (s.core C).vq 1 = [] ∧ s.strandAt C 0 = some Tc ∧ Tc.run ≠ .faulted) ∧
    (let s := vsample Tc xv (queued [qe 1 1 none false])
     (s.core C).vq 0 = [qe 1 1 none false] ∧ s.strandAt C 0 = some Tc ∧ (qe 1 1 none false).uid = Tc.uid) :=
  ⟨⟨vready_of (by decide +kernel) rfl, by decide +kernel⟩, ⟨vready_of (by decide +kernel) rfl, room_of (by decide +kernel), by decide +kernel⟩, by decide +kernel,
   by decide +kernel, by decide +kernel, by decide +kernel⟩

/-- The strand holds with its entry at the front, all chunks granted. -/
def Tk : Strand := { Tc with hold := some ⟨0, 0, false, [], [], Flags.none⟩, run := .blocked .mem }
theorem vholds_of {s : State} {c : CoreId} {n : Nat} {st : Strand} {i : Nat} {x : VecCtx} {g : Guard} {h : VProg} {e : VQEntry}
    (a : s.curStrand = some (c, n, st) ∧ guardHolds st g = true ∧ n < 32 ∧ (s.core c).has 1 = true ∧ st.vctx = some i ∧
      List.lookup i (s.core c).vctx = some x ∧ st.stat.qbound = false)
    (b : st.hold = some h ∧ (s.core c).vq (n / 16) = [e] ∧ e.uid = st.uid ∧ e.holding = true ∧ max 1 ((x.vl + 15) / 16) ≤ e.granted) :
    VHolds s c n st i x g h e :=
  by
  obtain ⟨turn, guard, slot, unit, bound, holds, noQueue⟩ := a
  obtain ⟨hold, front, own, holding, granted⟩ := b
  exact ⟨turn, guard, slot, unit, bound, holds, noQueue, hold, front, own, holding, granted⟩
def held (x : VecCtx) : State := vsample Tk x (queued [qe 16 16 none true])
theorem test_witness_VectorReductionResults :
    (VReady (vsample Tc xf id) C 0 Tc 3 xf .none [5] ∧ (vsample Tc xf id).vecRoom C 0 Tc ∧ xf.noVerdict none .f32 1 ∧
      Elem.f32 ∈ typesDiv ∧ Elem.f32 ∈ typesArith) ∧
    VHolds (held xi) C 0 Tk 3 xi .none ⟨0, 0, false, [], [], Flags.none⟩ (qe 16 16 none true) ∧
    VHolds (held xf) C 0 Tk 3 xf .none ⟨0, 0, false, [], [], Flags.none⟩ (qe 16 16 none true) ∧
    ((xi.act none).map (xi.elem .i32 1)).length = 256 ∧ ((xi.act (some 2)).map (xi.elem .i32 1)) = [] ∧
    (7 ∈ (xi.act none).map (xi.elem .i32 1) ∧ ∀ y ∈ (xi.act none).map (xi.elem .i32 1), sextInt y 32 ≤ sextInt 7 32) ∧
    (0x80000000 ∈ (xi.act none).map (xi.elem .i32 1) ∧
      ∀ y ∈ (xi.act none).map (xi.elem .i32 1), sextInt 0x80000000 32 ≤ sextInt y 32) ∧
    (xi.isActive none 0 = true ∧ xi.elem .i32 1 0 = 7) ∧
    ((xf.act none).map (xf.elem .f32 1)).filter (fun v => !(decFp .f32 v).isNaN) ≠ [] ∧
    ((xf.act (some 2)).map (xf.elem .f32 1)).filter (fun v => !(decFp .f32 v).isNaN) = [] :=
  ⟨⟨vready_of (by decide +kernel) rfl, room_of (by decide +kernel), noVerdict_of (by decide +kernel), by decide +kernel, by decide +kernel⟩,
   vholds_of (by decide +kernel) (by decide +kernel), vholds_of (by decide +kernel) (by decide +kernel), by decide +kernel,
   by decide +kernel, by decide +kernel, by decide +kernel, by decide +kernel, by decide +kernel, by decide +kernel⟩

theorem vlocal_of {s : State} {st : Strand} {mem : Nat × Nat} {form : Form} {base : Word} {off : Int} {kind pa : Nat} {leaf : Word}
    (h : trOk (s.resolve (placeCtx C st) st form base off kind (memberInfo 2 mem.1 mem.2)) pa leaf = true)
    (h2 : homeOf pa = C ∧ isHost pa = false ∧ inControl (offOf pa) = false ∧ lfMirror leaf = false ∧ st.lds = [] ∧ st.posts = [])
    (h3 : let t := trState (s.resolve (placeCtx C st) st form base off kind (memberInfo 2 mem.1 mem.2))
      Memory.wf t.mem = true ∧ (t.core C).cfg.fwdValid = false ∧ t.ecc = [] ∧ t.soft = [] ∧ (t.core C).merges = [] ∧ (t.core C).waiters = []) :
    VLocal s C st mem form base off kind pa leaf
      (trState (s.resolve (placeCtx C st) st form base off kind (memberInfo 2 mem.1 mem.2))) := by
  obtain ⟨home, device, plain, mirror, lds, posts⟩ := h2
  obtain ⟨wf, live, clean, sound, merges, waiters⟩ := h3
  exact ⟨wf, tr_ok h, home, device, plain, mirror, live, clean, sound, merges, waiters, lds, posts⟩
def Sx : State := vsample Tc xf id
def Sxe : State := { Sx with feEmpty := [0x1FFF] }
def afterPlace (s : State) (st : Strand) (mem : Nat × Nat) (off : Int) (kind : Nat) : State :=
  trState (s.resolve (placeCtx C st) st .va (st.reg 4) off kind (memberInfo 2 mem.1 mem.2))
theorem test_witness_VectorEventsAtTheirCore :
    0x1FFF8 % 8 = 0 ∧ VLocal Sx C Tc (9, 0) .va (Tc.reg 4) 0xFFF8 1 0x1FFF8 0x102BF (afterPlace Sx Tc (9, 0) 0xFFF8 1) ∧
    (FeAllowed .va 0x1FFF8 0x102BF ∧ ∀ g ∈ partGranules 0x1FFF8 8 true, (afterPlace Sx Tc (9, 0) 0xFFF8 1).full (16 * g) = true) ∧
    (afterPlace Sx Tc (9, 0) 0xFFF8 1).quietWrites C Tc ∧
    VLocal Sx C Tc (10, 0) .va (Tc.reg 4) 0xFFF8 2 0x1FFF8 0x102BF (afterPlace Sx Tc (10, 0) 0xFFF8 2) ∧ (afterPlace Sx Tc (10, 0) 0xFFF8 2).quietWrites C Tc ∧
    VLocal Sxe C Tc (10, 0) .va (Tc.reg 4) 0xFFF8 2 0x1FFF8 0x102BF (afterPlace Sxe Tc (10, 0) 0xFFF8 2) ∧
    (∀ g ∈ partGranules 0x1FFF8 8 false, (afterPlace Sxe Tc (10, 0) 0xFFF8 2).full (16 * g) = false) ∧
    VLocal Sx C Tc (12, 2) .va (Tc.reg 4) 0 5 0x10000 0x102BF (afterPlace Sx Tc (12, 2) 0 5) :=
  ⟨by decide, vlocal_of (by decide +kernel) (by decide +kernel) (by decide +kernel), ⟨Or.inr (by decide +kernel), by decide +kernel⟩,
   quiet_of (by decide +kernel), vlocal_of (by decide +kernel) (by decide +kernel) (by decide +kernel), quiet_of (by decide +kernel),
   vlocal_of (by decide +kernel) (by decide +kernel) (by decide +kernel), by decide +kernel,
   vlocal_of (by decide +kernel) (by decide +kernel) (by decide +kernel)⟩

def vOk : VGot → Bool | .ok _ _ _ => true | _ => false
/-- The strand holds with progress at element `pos` and the values vals. -/
def Tm (pos : Nat) (vals : List Word) : Strand := { Tc with hold := some ⟨16, pos, false, vals, [], Flags.none⟩, run := .blocked .mem }
def Sm (pos : Nat) (vals : List Word) (x : VecCtx) : State := vsample (Tm pos vals) x (queued [qe 16 16 none true])
theorem test_witness_VectorMovesBetweenElementsAndMemory :
    (Elem.f32 ∈ typesMem ∧ VReady Sx C 0 Tc 3 xf .none [4, 2] ∧ Sx.vecRoom C 0 Tc) ∧
    (VHolds (Sm 0 [0x10000] xf) C 0 (Tm 0 [0x10000]) 3 xf .none ⟨16, 0, false, [0x10000], [], Flags.none⟩ (qe 16 16 none true) ∧
      (Tm 0 [0x10000]).lds.any (fun l => l.aq) = false ∧ (Sm 0 [0x10000] xf).quiet C (Tm 0 [0x10000]) true = true ∧
      (BitVec.ofInt 64 ((0x10000 : Int) + 0 * 64)).toNat % 4 = 0) ∧
    (xf.group none 0 (fun k => 0x10000 + 4 * k) false = [0, 1, 2, 3] ∧ xf.group none 256 (fun k => 0x10000 + 4 * k) false = []) ∧
    (VHolds (Sm 255 [0x10000, 4] xf) C 0 (Tm 255 [0x10000, 4]) 3 xf .none ⟨16, 255, false, [0x10000, 4], [], Flags.none⟩ (qe 16 16 none true) ∧
      xf.group none 255 (fun k => 0x10000 + 4 * k) true = [255]) ∧
    (match (Sm 0 [0x10000] xf).vecRead C 0 (Tm 0 [0x10000]) { vecPlan (9, 0) .va 1 4 false false with aq := false } 0x10000 0 16 .none true with
      | .ok b st' _ => decide (b.length = 16 ∧ st' = Tm 0 [0x10000]) | _ => false) = true ∧
    (match (Sm 0 [0x10000] xf).vecWrite C 0 (Tm 0 [0x10000]) (vecPlan (10, 0) .va 2 4 false false) 0x10000 0 [(0, leBytes 4 5)] 4 .none true with
      | .ok b st' _ => decide (b = [] ∧ st' = Tm 0 [0x10000]) | _ => false) = true :=
  ⟨⟨by decide +kernel, vready_of (by decide +kernel) rfl, room_of (by decide +kernel)⟩,
   ⟨vholds_of (by decide +kernel) (by decide +kernel), by decide +kernel⟩, by decide +kernel,
   ⟨vholds_of (by decide +kernel) (by decide +kernel), by decide +kernel⟩, by decide +kernel, by decide +kernel⟩

/-- Lanes at 0x10000 + 4 × v2[j], in the translation caches or not; frames at 0x10000 and scales at 0x10800. -/
def xl : VecCtx := ctx .f32 1 [(256, 0x3F800000), (512, 1)]
def Sl (pos : Nat) (vals : List Word) (x : VecCtx) : State :=
  vsample (Tm pos vals) x (fun k => { queued [qe 16 16 none true] k with coreTlb := [] })
theorem test_witness_VectorLanesAndFrames :
    (VHolds (Sm 0 [0x10000] xl) C 0 (Tm 0 [0x10000]) 3 xl .none ⟨16, 0, false, [0x10000], [], Flags.none⟩ (qe 16 16 none true) ∧
      Elem.f32 ∈ typesMem ∧ (xl.act none).filter (fun j => decide (0 ≤ j)) = [0] ∧
      (Sm 0 [0x10000] xl).coreTlbMiss C (Tm 0 [0x10000]) 0x10004 = false) ∧
    (VHolds (Sl 0 [0x10000] xl) C 0 (Tm 0 [0x10000]) 3 xl .none ⟨16, 0, false, [0x10000], [], Flags.none⟩ (qe 16 16 none true) ∧
      (Sl 0 [0x10000] xl).coreTlbMiss C (Tm 0 [0x10000]) 0x10004 = true) ∧
    (VHolds (Sm 1 [0x10000] xl) C 0 (Tm 1 [0x10000]) 3 xl .none ⟨16, 1, false, [0x10000], [], Flags.none⟩ (qe 16 16 none true) ∧
      (xl.act none).filter (fun j => decide (1 ≤ j)) = []) ∧
    vOk ((Sm 0 [0x10000] xl).vecRead C 0 (Tm 0 [0x10000]) (vecPlan (12, 0) .va 1 4 false false) 0x10004 0 4 .none true) = true ∧
    vOk ((Sm 0 [0x10000] xl).vecWrite C 0 (Tm 0 [0x10000]) (vecPlan (12, 1) .va 2 4 false false) 0x10004 0 [(0, leBytes 4 5)] 4 .none
      true) = true ∧
    vOk ((Sm 0 [0x10000] xl).vecRed C (Tm 0 [0x10000]) (vecPlan (12, 2) .va 5 4 false true) 0x10004 .fadd 0x3F800000) = true ∧
    vOk ((Sm 0 [0x10000] xl).vecRed C (Tm 0 [0x10000]) (vecPlan (12, 3) .va 5 4 false true) 0x10004 .fmax 0x3F800000) = true ∧
    Elem.t8 ∈ typesTaper ∧ Elem.f32 ∈ typesMem :=
  ⟨⟨vholds_of (by decide +kernel) (by decide +kernel), by decide +kernel⟩,
   ⟨vholds_of (by decide +kernel) (by decide +kernel), by decide +kernel⟩,
   ⟨vholds_of (by decide +kernel) (by decide +kernel), by decide +kernel⟩, by decide +kernel, by decide +kernel, by decide +kernel,
   by decide +kernel, by decide +kernel, by decide +kernel⟩

/-- VSTB and VLDB with a frame address, a unit, a position and bytes in hand; the scale bytes stand at 0x10800. -/
def Tbl (a : Word) (unit pos : Nat) (buf : List Byte) : Strand :=
  { Tc with hold := some ⟨unit, pos, false, [a, 0x10800], buf, Flags.none⟩, run := .blocked .mem }
def Sbl (x : VecCtx) (st : Strand) : State := vsample st x (queued [qe 16 16 none true])
/-- Two frames; xt has one. -/
def xt2 : VecCtx := { xt with vl := 64 }
/-- The hypotheses of VSTB and VLDB: frames in one part and in two, the last frame and one before it, scale bytes, and the end. -/
theorem test_witness_VectorFrames :
    VHolds (Sbl xt (Tbl 0x10000 16 0 [])) C 0 (Tbl 0x10000 16 0 []) 3 xt .none ⟨16, 0, false, [0x10000, 0x10800], [], Flags.none⟩
      (qe 16 16 none true) ∧
    VHolds (Sbl xt (Tbl 0x10038 16 0 [5, 6])) C 0 (Tbl 0x10038 16 0 [5, 6]) 3 xt .none
      ⟨16, 0, false, [0x10038, 0x10800], [5, 6], Flags.none⟩ (qe 16 16 none true) ∧
    (Sbl xt (Tbl 0x10000 16 0 [])).settled C (Tbl 0x10000 16 0 []) true ∧
    ((Tbl 0x10038 16 0 []).lds.any (fun l => l.aq) = false ∧ (0x10038 : Word).toNat % 8 = 0 ∧ (xt.vl + 31) / 32 = 1 ∧
      (xt2.vl + 31) / 32 = 2 ∧ (framePart 0x10000 32 0).2.2 = true ∧ (framePart 0x10038 32 0).2.2 = false ∧
      (framePart 0x10038 32 16).2.2 = true) ∧
    (let w := fun (x : VecCtx) (a : Word) (pos off len : Nat) =>
       (Sbl x (Tbl a 16 pos [])).vecWrite C 0 (Tbl a 16 pos []) (vecPlan (11, 3) .va 2 8 false false) a off
         [(0, List.replicate len 0)] len .none (decide (off = 0))
     vOk (w xt 0x10038 0 0 8) = true ∧ vOk (w xt 0x10038 16 8 24) = true ∧ vOk (w xt2 0x10000 0 0 32) = true) ∧
    ((xt.scales none 0)[1]?.isSome = true ∧ (xt.scales none 0)[2]? = none ∧
      vOk ((Sbl xt (Tbl 0x10000 0 1 [])).vecWrite C 0 (Tbl 0x10000 0 1 []) (vecPlan (11, 3) .va 2 1 false false) 0x10800 1
        [(0, leBytes 1 0)] 1 .none true) = true) ∧
    ((xt.vl + xt.blen - 1) / xt.blen = 2 ∧
      vOk ((Sbl xt (Tbl 0x10000 16 0 [5])).vecRead C 0 (Tbl 0x10000 16 0 [5]) (vecPlan (11, 2) .va 1 1 false false) 0x10800 1 1 .none
        true) = true) ∧
    (let r := fun (a : Word) (pos off len : Nat) =>
       (Sbl xt (Tbl a 16 pos [5, 6])).vecRead C 0 (Tbl a 16 pos [5, 6]) { vecPlan (11, 2) .va 1 8 false false with aq := false } a off
         len .none (decide (off = 0))
     vOk (r 0x10038 0 0 8) = true ∧ vOk (r 0x10000 0 0 32) = true) :=
  ⟨vholds_of (by decide +kernel) (by decide +kernel), vholds_of (by decide +kernel) (by decide +kernel), settled_of (by decide +kernel),
   by decide +kernel, by decide +kernel, by decide +kernel, by decide +kernel, by decide +kernel⟩

/-- All eight contexts bound, and the last free. -/
def full8 (n : Nat) (k : Core) : Core := { k with vctx := (List.range n).map (fun i => (i, xf)) }
theorem test_witness_VectorContextControl :
    (S0.curStrand = some (C, 0, T0) ∧ guardHolds T0 .none = true ∧ (S0.core C).has 1 = true ∧ T0.vctx = none) ∧
    (let s := sample T0 (full8 7)
     s.curStrand = some (C, 0, T0) ∧ (s.core C).has 1 = true ∧ List.lookup 7 (s.core C).vctx = none ∧
       ∀ k < 7, List.lookup k (s.core C).vctx ≠ none) ∧
    (let s := sample T0 (full8 8); s.curStrand = some (C, 0, T0) ∧ ∀ k < 8, List.lookup k (s.core C).vctx ≠ none) ∧
    (Sx.curStrand = some (C, 0, Tc) ∧ Tc.vctx = some 3 ∧ (Sx.core C).vectorOpen Tc.uid = false) ∧
    (let s := vsample Tc xf (queued [qe 1 0 none false]); s.curStrand = some (C, 0, Tc) ∧ (s.core C).vectorOpen Tc.uid = true) ∧
    VReady Sx C 0 Tc 3 xf .none [2] ∧ elemOfCode 6 = some .i8 :=
  ⟨by decide +kernel, by decide +kernel, by decide +kernel, by decide +kernel, by decide +kernel, vready_of (by decide +kernel) rfl,
   by decide +kernel⟩

def gotState : Got → State | .ok _ s => s | .wait s => s | .fault _ s => s
def gotWaits : Got → Bool | .wait _ => true | _ => false
theorem got_wait {g : Got} (h : gotWaits g = true) : g = .wait (gotState g) := by cases g <;> simp_all [gotWaits, gotState]
theorem granule_of {s : State} {st : Strand} {n : Nat} {va : Word} {pos kind : Nat} {info : Word} {pa : Nat} {leaf : Word}
    (h : trOk (s.resolve (scalarCtx C n st) st .va va pos kind info) pa leaf = true)
    (h2 : homeOf pa = C ∧ isHost pa = false ∧ inControl (offOf pa) = false ∧ lfMirror leaf = false)
    (h3 : let t := trState (s.resolve (scalarCtx C n st) st .va va pos kind info)
      t.ecc = [] ∧ t.soft = [] ∧ (t.core C).merges = []) :
    GranuleAt s (scalarCtx C n st) st va pos kind info pa leaf (trState (s.resolve (scalarCtx C n st) st .va va pos kind info)) := by
  obtain ⟨home, device, plain, mirror⟩ := h2
  obtain ⟨clean, sound, merges⟩ := h3
  exact ⟨tr_ok h, home, device, plain, mirror, clean, sound, merges⟩

/-- A ring of four entries of 32 bytes whose counters wrap: three are published, and one is free or claimed. -/
def R0 : Ring := { asid := 0, mode := 0, sizem1 := 1, logent := 2, base := 0x400, head := 65534, pub := 1, claim := 1, granted := 0,
                   cbatch := 1, pword := 0, cword := 0, qout := false, qin := false, taskref := 0, waiters := [], ready := [] }
def ringed (r : Ring) (k : Core) : Core := { k with rings := [(3, r), (4, { R0 with base := 0x800 })] }
def Tr' (k : Word) : Strand := strand [(2, 0x33), (3, k), (4, 9), (5, 0x35)] id
def Sr (k : Word) (r : Ring) : State := sample (Tr' k) (ringed r)
/-- The strand with an LDS outstanding. -/
def Tr1 : Strand := { Tr' 1 with lds := [⟨1, 0x10000, 9, 8, false, 0, 16⟩] }
theorem calm_of {s : State} {st : Strand}
    (h : Memory.wf s.mem = true ∧ (s.core C).merges = [] ∧ (s.core C).waiters = [])
    (q : s.quietWrites C st) : CalmCore s C st := by
  obtain ⟨wf, merges, waiters⟩ := h
  exact ⟨wf, merges, waiters, q⟩
theorem test_witness_RingOperationsOfACore :
    Ready (Sr 1 R0) C 0 (Tr' 1) .none [2, 3, 4] ∧ ((Sr 1 R0).ring C 3 = some R0 ∧ R0.asid = (Tr' 1).asid) ∧
    (R0.f = 1 ∧ R0.p = 3 ∧ ((Tr' 1).reg 3).toNat = 1 ∧ ((Tr' 3).reg 3).toNat = 3 ∧ ((Tr' 4).reg 3).toNat = 4) ∧
    Ready (Sr 3 R0) C 0 (Tr' 3) .none [2, 3, 4] ∧ Ready (Sr 4 R0) C 0 (Tr' 4) .none [2, 3, 4] ∧
    (Ready (sample Tr1 (ringed R0)) C 0 Tr1 .none [2, 3] ∧ (sample Tr1 (ringed R0)).quiet C Tr1 false = false ∧
      (sample Tr1 (ringed R0)).noReds Tr1) ∧
    (let r : Ring := { R0 with claim := 2, mode := 2 }
     Ready (Sr 1 r) C 0 (Tr' 1) .none [2, 3] ∧ (Sr 1 r).quiet C (Tr' 1) false = true ∧ (Sr 1 r).noReds (Tr' 1) ∧ r.unready.length = 1 ∧ r.ready = [] ∧
       CalmCore (Sr 1 r) C (Tr' 1) ∧ 1 ≤ r.p) ∧
    (let r : Ring := { R0 with mode := 1 }; (Sr 1 r).ring C 3 = some r ∧ r.mode = 1 ∧ r.p ≠ 0 ∧ r.claim = r.pub) ∧
    ((Sr 1 R0).ring C (((Tr' 1).reg 5).toNat % 16) = none ∧ (Sr 1 { R0 with asid := 7 }).ring C 3 = some { R0 with asid := 7 }) ∧
    ((Sr 4 R0).isDue ((Sr 4 R0).limitAt (Tr' 4) 9) = false ∧ (Sr 4 R0).isDue ((Sr 4 R0).limitAt (Tr' 4) 0) = true ∧
      (Tr' 4).stat.wtrap = false) :=
  ⟨ready_of (by decide +kernel), by decide +kernel, by decide +kernel, ready_of (by decide +kernel), ready_of (by decide +kernel),
   ⟨ready_of (by decide +kernel), by decide +kernel, noReds_of (by decide +kernel)⟩,
   ⟨ready_of (by decide +kernel), by decide +kernel, noReds_of (by decide +kernel), by decide +kernel, by decide +kernel,
     calm_of (by decide +kernel) (quiet_of (by decide +kernel)), by decide +kernel⟩, by decide +kernel, by decide +kernel, by decide +kernel⟩

/-- Descriptors at 0x10100. -/
def described (s : State) (l : List Nat) : State := { s with mem := memWrite s.mem 0x10100 (l.map (leBytes 8)).flatten }
def Td : Strand := strand [(2, 3), (3, 0x10100), (4, 9), (5, 0x10104)] id
def ringWord (mode size logent base : Nat) : Nat := 2 ^ 47 + mode * 2 ^ 45 + size * 2 ^ 37 + logent * 2 ^ 33 + base
def Sd (l : List Nat) (h : Core → Core) : State := described (sample Td h) l
/-- The strand has the doublewords of its descriptor in hand. -/
def Tdr (l : List Nat) : Strand := { Td with rbuf := (l.map (leBytes 8)).flatten }
def Sdr (l : List Nat) (h : Core → Core) : State := sample (Tdr l) h
theorem read_of {st : Strand} {va : Word} {al len : Nat} (h : va.toNat % al = 0 ∧ st.rbuf.length = len) : st.hasRead va al len st.rbuf :=
  ⟨h.1, rfl, h.2⟩
def infoRcfg : Word := BitVec.ofNat 64 (3 * 65536 + 256 + 3)
theorem test_witness_RingConfiguration :
    Ready (Sd [] id) C 0 Td .none [2, 3, 5] ∧ (Td.reg 5).toNat % 16 ≠ 0 ∧ (Td.reg 3).toNat % 16 = 0 ∧
    (16 ≤ (Tdr [7, 8]).rbuf.length ∧ Td.rbuf.length < 16 ∧ Td.bulk = none ∧
      GranuleAt (Sd [7, 8] id) (scalarCtx C 0 Td) Td 0x10100 0 1 infoRcfg 0x10100 0x102BF
        (trState ((Sd [7, 8] id).resolve (scalarCtx C 0 Td) Td .va 0x10100 0 1 infoRcfg)) ∧
      gotWaits ((Sd [7, 8] id).readVa C 0 Td 0x10100 16 infoRcfg) = true) ∧
    (let l := [ringWord 2 255 8 0, 0]
     Ready (Sdr l id) C 0 (Tdr l) .none [2, 3] ∧ (Tdr l).hasRead ((Tdr l).reg 3) 16 16 (Tdr l).rbuf ∧
     (dwAt (Tdr l).rbuf 0).toNat = ringWord 2 255 8 0 ∧ 0 + 2 ^ 8 * 4096 = 2 ^ 20 ∧ CalmCore (Sdr l id) C (Tdr l) ∧
     (Sdr l id).ring C 3 = none) ∧
    ((dwAt (Tdr [ringWord 0 0 11 0, 0]).rbuf 0).toNat / 2 ^ 33 % 16 = 11 ∧
      (Sdr [0, 0] (ringed { R0 with granted := 1 })).ring C 3 = some { R0 with granted := 1 } ∧
      (dwAt (Tdr [0, 0]).rbuf 0).toNat / 2 ^ 47 % 2 = 0 ∧ (Sdr [0, 0] (ringed R0)).ring C 3 = some R0) :=
  ⟨ready_of (by decide +kernel), by decide +kernel, by decide +kernel,
   ⟨by decide +kernel, by decide +kernel, rfl, granule_of (by decide +kernel) (by decide +kernel) (by decide +kernel), by decide +kernel⟩,
   ⟨ready_of (by decide +kernel), read_of (by decide +kernel), by decide +kernel, by decide +kernel,
    calm_of (by decide +kernel) (quiet_of (by decide +kernel)), by decide +kernel⟩, by decide +kernel⟩

def cred0 : Credit := { ln := 0, ring := 3, valid := true, req := false, sizem1 := 1, credits := 2, asid := 0, resend := none, tag := none }
def credited (e : Credit) (k : Core) : Core := { ringed R0 k with credits := [(5, e)] }
def Ta : Strand := strand [(2, 0x500000003), (3, 0x20000400), (4, 77), (5, 0x500000004), (6, 0xFFFF0003), (7, 0x105), (8, 5),
                           (9, 0x200FFFE0)] id
def Sa (e : Credit) : State := sample Ta (credited e)
/-- Its entry of 32 bytes is read. -/
def Tae : Strand := { Ta with rbuf := List.replicate 32 1 }
theorem test_witness_RingsOfOtherCores :
    Ready (Sa cred0) C 0 Ta .none [2, 3, 4, 5, 6, 7, 8, 9] ∧ (Ta.reg 4).toNat % 16 ≠ 0 ∧ (Ta.reg 3).toNat % 16 = 0 ∧
    (Sa cred0).credit C 5 = some cred0 ∧ (Sa cred0).settled C Ta false ∧
    (Sa cred0).lnCore ((Sa cred0).partOf C) 0 = some C ∧
    ((Ta.reg 9).toNat + 16 * (cred0.sizem1 + 1) = 0x20100000 ∧ Ready (sample Tae (credited cred0)) C 0 Tae .none [2, 9, 4] ∧
      Tae.hasRead (Tae.reg 9) 16 (16 * (cred0.sizem1 + 1)) Tae.rbuf) ∧
    ((Sa { cred0 with credits := 0 }).credit C 5 = some { cred0 with credits := 0 } ∧
      (Sa { cred0 with credits := 0 }).isDue ((Sa { cred0 with credits := 0 }).limitAt Ta 77) = false) ∧
    ((Ta.reg 5).toNat % 16 ≠ cred0.ring ∧ Ta.deadline = none ∧ (Sa cred0).credit C ((Ta.reg 4).toNat % 16) = none ∧
      (Ta.reg 8).getLsbD 8 = false ∧ (Ta.reg 7).getLsbD 8 = true ∧ (Sa cred0).lnCore ((Sa cred0).partOf C) 0xFFFF = none) :=
  ⟨ready_of (by decide +kernel), by decide +kernel, by decide +kernel, by decide +kernel, settled_of (by decide +kernel),
   by decide +kernel, ⟨by decide +kernel, ready_of (by decide +kernel), read_of (by decide +kernel)⟩, by decide +kernel,
   by decide +kernel⟩

/-- The strand with rings 3 and 4 bound as IN and OUT. -/
def Tb : Strand := strand [(2, 0x343), (3, 0x333), (4, 0x353)] id
def Tbq : Strand := strand [(2, 100)] (fun st => { st with qb := some ⟨3, 4, true, true⟩, stat := { Stat.reset with qbound := true } })
def Sb (a : Ring) (f : Nat) : State :=
  sample Tbq (fun k => { k with rings := [(3, a), (4, { R0 with base := 0x800, qout := true, pword := f })] })
theorem test_witness_QueuesMappedToRegisters :
    (Ready (sample Tb (ringed R0)) C 0 Tb .none [2, 3, 4] ∧ (sample Tb (ringed R0)).ring C 4 = some { R0 with base := 0x800 } ∧
      (sample Tb (ringed R0)).ring C 5 = none) ∧
    (let s := Sb { R0 with qin := true } 0
     s.curStrand = some (C, 0, Tbq) ∧ guardHolds Tbq .none = true ∧ Tbq.stat.qbound = true ∧ s.settled C Tbq false ∧
       s.ring C 3 = some { R0 with qin := true }) ∧
    (let s := Sb { R0 with qin := true, cword := 2 } 2
     s.curStrand = some (C, 0, Tbq) ∧ Tbq.pending 12 = .clear ∧ 2 + 1 < 2 * (R0.sizem1 + 1) ∧ 2 + 1 ≤ R0.p * 4) ∧
    CalmCore (Sb { R0 with qin := true, cword := 2 } 2) C Tbq ∧
    (let s := Sb { R0 with qin := true, head := 1 } 0
     s.curStrand = some (C, 0, Tbq) ∧ s.ring C 3 = some { R0 with qin := true, head := 1 } ∧ Ring.p { R0 with head := 1 } = 0) :=
  ⟨⟨ready_of (by decide +kernel), by decide +kernel⟩,
   ⟨by decide +kernel, by decide +kernel, by decide +kernel, settled_of (by decide +kernel), by decide +kernel⟩, by decide +kernel,
   calm_of (by decide +kernel) (quiet_of (by decide +kernel)), by decide +kernel⟩

/-- Copy descriptors: full length, a reserved form, one byte too long; and byte-count barriers reached and not. -/
def copyWord (x : Nat) : List Nat := [0x20000, 0x30000, x, 0x77]
def bcb0 (k : Core) : Core := { k with bcbs := [(3, ⟨9, 0⟩)] }
theorem test_witness_CopiesAndByteCounts :
    (Ready (Sd [] id) C 0 Td .none [3, 5, 1] ∧ (Sd [] id).settled C Td false ∧ (Td.reg 5).toNat % 32 ≠ 0) ∧
    (let l := copyWord (2 ^ 61 + 2 ^ 20)
     Ready (Sdr l id) C 0 (Tdr l) .none [3, 1] ∧ (Sdr l id).settled C (Tdr l) false ∧
     (Tdr l).hasRead ((Tdr l).reg 3) 32 32 (Tdr l).rbuf ∧ (dwAt (Tdr l).rbuf 16).toNat % 2 ^ 21 = 2 ^ 20 ∧
     (dwAt (Tdr l).rbuf 16).toNat / 2 ^ 56 % 2 = 0 ∧ (Sdr l id).copyRange C (Tdr l) (formOf 1) (dwAt (Tdr l).rbuf 0) (2 ^ 20) 1 = none ∧
     (Sdr l id).copyRange C (Tdr l) (formOf 0) (dwAt (Tdr l).rbuf 8) (2 ^ 20) 2 = none ∧
     ((Sdr l id).core C).has 3 = true ∧ ((Sdr l id).core C).freeRecord = some 0) ∧
    ((dwAt (Tdr (copyWord (7 * 2 ^ 61))).rbuf 16).toNat / 2 ^ 61 % 8 = 7 ∧
      (dwAt (Tdr (copyWord (2 ^ 20 + 1))).rbuf 16).toNat % 2 ^ 21 = 2 ^ 20 + 1) ∧
    (Ready (Sd [] bcb0) C 0 Td .none [2, 4, 1] ∧ List.lookup 3 ((Sd [] bcb0).core C).bcbs = some ⟨9, 0⟩) :=
  ⟨⟨ready_of (by decide +kernel), settled_of (by decide +kernel), by decide +kernel⟩,
   ⟨ready_of (by decide +kernel), settled_of (by decide +kernel), read_of (by decide +kernel), by decide +kernel, by decide +kernel,
    by decide +kernel, by decide +kernel, by decide +kernel, by decide +kernel⟩, by decide +kernel,
   ⟨ready_of (by decide +kernel), by decide +kernel⟩⟩

/-- Matrix tasks: a tile, one that marks its output EMPTY, one that is refused; a program; and a running task. -/
def rings2 (k : Core) : Core :=
  { k with rings := [(3, { R0 with base := 0, sizem1 := 255 }), (4, { R0 with base := 0x4000, sizem1 := 255 })] }
def tile (x : Nat) : List Nat :=
  [2 ^ 63 + x + 3 * 2 ^ 46 + 3 * 2 ^ 40 + 3 * 2 ^ 35 + 3 * 2 ^ 30 + 3 * 2 ^ 26 + 4 * 2 ^ 22 + 31, 5, 0, 0, 0, 16 * 2 ^ 32 + 0x8000,
   0, 0, 0, 0, 0, 0, 0, 0, 0, 0]
def taskJob (l : List Nat) (h : Core → Core) : MatrixJob := (Sdr l h).takeProg C 0 (matrixOfWords (Tdr l) (Tdr l).rbuf)
def job0 : MatrixJob :=
  { words := (Vector.replicate 16 0).set 0 (2 ^ 61), fmta := 3, fmtb := 3, sca := 0, scb := 0, prog := none, step := 0, acc := [],
    lanes := [], theta := 0x3F800000, qscales := [], blocks := 0, taken := 0, published := 5, abandoned := 2, noVerdict := false,
    refresh := false }
def working (k : Core) : Core := { k with records := [(0, rec0 (.matrix job0) .running)] }
def fullRecords (k : Core) : Core := { rings2 k with records := (List.range 32).map (fun i => (i, rec0 (.copy copy0) .waitdep)) }
theorem test_witness_MatrixEngineInstructions :
    (Ready (Sd [] rings2) C 0 Td .none [3, 5, 1] ∧ (Sd [] rings2).settled C Td false ∧ (Td.reg 5).toNat % 64 ≠ 0) ∧
    (let l := tile 0
     Ready (Sdr l rings2) C 0 (Tdr l) .none [3, 1] ∧ (Sdr l rings2).settled C (Tdr l) false ∧
     (Tdr l).hasRead ((Tdr l).reg 3) 64 128 (Tdr l).rbuf ∧ ((Sdr l rings2).core C).has 2 = true ∧
     ((Sdr l rings2).core C).freeRecord = some 0 ∧ (Sdr l rings2).taskRefused C 0 (taskJob l rings2) = none ∧
     toMark C (taskJob l rings2) = []) ∧
    (let l := tile (2 ^ 54)
     (Sdr l rings2).taskRefused C 0 (taskJob l rings2) = none ∧ (toMark C (taskJob l rings2))[0]?.isSome = true ∧
     CalmCore (Sdr l rings2) C (Tdr l)) ∧
    (let l := [3 * 2 ^ 61, 0, 0, 0, 0, 0, 0, 0, 0, 0, 0, 0, 0, 0, 0, 0]
     (Tdr l).hasRead ((Tdr l).reg 3) 64 128 (Tdr l).rbuf ∧ ((Sdr l id).taskRefused C 0 (taskJob l id)).isSome = true) ∧
    (let l := tile 0
     ((Sdr l fullRecords).core C).freeRecord = none ∧ (Sdr l fullRecords).taskRefused C 0 (taskJob l fullRecords) = none) ∧
    ((Tdr [0, 1]).hasRead ((Tdr [0, 1]).reg 3) 16 16 (Tdr [0, 1]).rbuf ∧
      (parseProg (dwAt (Tdr [0, 1]).rbuf 0).toNat (dwAt (Tdr [0, 1]).rbuf 8).toNat).isSome = true ∧ ((Tdr [0, 1]).reg 2).toNat % 4 = 3 ∧
      parseProg (dwAt (Tdr [2 ^ 63 + 31, 0]).rbuf 0).toNat (dwAt (Tdr [2 ^ 63 + 31, 0]).rbuf 8).toNat = none) ∧
    (let s := sample Td working
     s.curStrand = some (C, 0, Td) ∧ s.record C 0 = some (rec0 (.matrix job0) .running) ∧
       (s.core C).runningTask = some (0, rec0 (.matrix job0) .running, job0) ∧ (S0.core C).runningTask = none) :=
  ⟨⟨ready_of (by decide +kernel), settled_of (by decide +kernel), by decide +kernel⟩,
   ⟨ready_of (by decide +kernel), settled_of (by decide +kernel), read_of (by decide +kernel), by decide +kernel, by decide +kernel,
    by decide +kernel, by decide +kernel⟩,
   ⟨by decide +kernel, by decide +kernel, calm_of (by decide +kernel) (quiet_of (by decide +kernel))⟩,
   ⟨read_of (by decide +kernel), by decide +kernel⟩, by decide +kernel, ⟨read_of (by decide +kernel), by decide +kernel⟩,
   by decide +kernel⟩

/-- A member of the crew of launch slot 2, channel 12 with slot kind ws, and the three stages of its phase. -/
def Tg : Strand := strand [(2, 12), (3, 50), (4, 0x7FA00001), (5, 12 + 2 * 256), (6, 0)] (fun st =>
  { st with lslot := some 2, crew := 3 })
def chan0 : Channel := Channel.fresh 2 12
def crew0 : Crew := { asid := 0, log := false, taskv := 0, fmta := 0, fmtb := 0, size := 8, gangv := 0, sca := 0, scb := 0, exited := 0,
                      arrived := 0, pendrel := 0, phase := 7, refs := [], removed := false, mark := .clean }
def crewed (ch : Channel) (ws : Nat) (k : Core) : Core :=
  { k with crews := [(2, crew0)], chans := [ch], cfg := { k.cfg with wslots := wd ws } }
def Sg (ch : Channel) (ws : Nat) : State := sample Tg (crewed ch ws)
def view (ch : Channel) (ws : Nat) : Option (Bool × Bool × Bool) :=
  ((Sg ch ws).chanView C Tg 12).map (fun w => (w.done, w.arrived, w.gone))
theorem test_witness_BarriersAndCollectives :
    (Ready S0 C 0 T0 .none [2, 3, 1] ∧ T0.lslot = none ∧ S0.chanView C T0 5 = none) ∧
    (Ready (Sg chan0 4) C 0 Tg .none [2, 3, 4, 5, 1] ∧ (Sg chan0 4).crewCore C Tg = some C ∧ Tg.spawned = false ∧
      (Sg chan0 4).settled C Tg false ∧ (Sg chan0 4).settled C Tg (((Sg chan0 4).core C).isFabric 12)) ∧
    (((Sg chan0 4).core C).slotKind 12 = 1 ∧ ((Sg chan0 8).core C).slotKind 12 = 2 ∧ ((Sg chan0 0).core C).slotKind 12 = 0) ∧
    (view chan0 4 = some (false, false, false) ∧ view { chan0 with arrived := 8 } 4 = some (false, true, false) ∧
      view { chan0 with done := 8 } 4 = some (true, false, false) ∧ view chan0 8 = some (false, false, false) ∧
      view { chan0 with arrived := 8 } 8 = some (false, true, false) ∧ view { chan0 with done := 8 } 8 = some (true, false, false)) ∧
    ((Sg chan0 4).isDue ((Sg chan0 4).limitAt Tg 50) = false ∧ (Sg chan0 4).isDue ((Sg chan0 4).limitAt Tg 0) = true) ∧
    (isVN .f32 (Tg.lo32 4) = true ∧ (Tg.reg 5).toNat / 2 ^ 8 % 4 = 2 ∧ (Tg.reg 5).toNat % 32 = 12) :=
  ⟨⟨ready_of (by decide +kernel), by decide +kernel, by decide +kernel⟩, ⟨ready_of (by decide +kernel), by decide +kernel, by decide +kernel,
   settled_of (by decide +kernel), settled_of (by decide +kernel)⟩, by decide +kernel, by decide +kernel, by decide +kernel,
   by decide +kernel⟩

theorem pready_of {s : State} {c : CoreId} {n : Nat} {st : Strand} {g : Guard} {rs : List Reg}
    (h : s.curStrand = some (c, n, st) ∧ guardHolds st g = true ∧ (∀ r ∈ rs, st.pending r = .clear) ∧ st.stat.qbound = false)
    (p : st.stat.priv = true) : PReady s c n st g rs := ⟨ready_of h, p⟩
theorem test_witness_PrivilegedRegisterAccess :
    PReady S0 C 0 T0 .none [2] ∧ (∃ x, S0.part (S0.partOf C) = some x ∧ x.discards < 2 ^ 32 ∧ x.refusals < 2 ^ 32) :=
  ⟨pready_of (by decide +kernel) rfl, fetchPart none, by decide +kernel⟩

/-- The last 256 bytes of a stripe; event codes 0, 1, 16 and 17. -/
def Te : Strand := strand [(2, 7), (3, 0x10F00), (4, 1 * 2 ^ 40), (5, 16 * 2 ^ 40), (6, 17 * 2 ^ 40), (7, 0x10F20)] id
def Sv : State := sample Te id
/-- CTRSAVE before its last granule and after it; CTRLOAD with its bytes in hand. -/
def Tes (pos : Nat) : Strand := { Te with bulk := some ⟨[], 256, pos, 1⟩ }
def Tel : Strand := { Te with rbuf := List.replicate 256 3 }
def afterGranule (s : State) (st : Strand) (pos kind : Nat) (info : Word) : State :=
  trState (s.resolve (scalarCtx C 0 st) st .va (st.reg 3) pos kind info)
theorem test_witness_CountersOfACore :
    PReady Sv C 0 Te .none [2, 3, 4, 5, 6, 7] ∧ (Te.reg 2).toNat % 8 = (7 : Fin 8).val ∧
    ((Te.reg 4).toNat / 2 ^ 40 % 256 = 1 ∧ (Te.reg 5).toNat / 2 ^ 40 % 256 = 16 ∧ (Te.reg 6).toNat / 2 ^ 40 % 256 = 17) ∧
    (PReady (sample (Tes 240) id) C 0 (Tes 240) .none [3] ∧ ((Tes 240).reg 3).toNat % 64 = 0 ∧
      GranuleAt (sample (Tes 240) id) (scalarCtx C 0 (Tes 240)) (Tes 240) ((Tes 240).reg 3) 240 kWrite (memberInfo 5 5 2) 0x10FF0 0x102BF
        (afterGranule (sample (Tes 240) id) (Tes 240) 240 kWrite (memberInfo 5 5 2)) ∧
      CalmCore (afterGranule (sample (Tes 240) id) (Tes 240) 240 kWrite (memberInfo 5 5 2)) C (Tes 240)) ∧
    PReady (sample (Tes 256) id) C 0 (Tes 256) .none [3] ∧
    (PReady (sample Tel id) C 0 Tel .none [3] ∧ Tel.hasRead (Tel.reg 3) 64 256 Tel.rbuf) ∧ (Te.reg 7).toNat % 64 ≠ 0 :=
  ⟨pready_of (by decide +kernel) rfl, by decide +kernel, by decide +kernel,
   ⟨pready_of (by decide +kernel) rfl, by decide +kernel, granule_of (by decide +kernel) (by decide +kernel) (by decide +kernel),
    calm_of (by decide +kernel) (quiet_of (by decide +kernel))⟩, pready_of (by decide +kernel) rfl,
   ⟨pready_of (by decide +kernel) rfl, read_of (by decide +kernel)⟩, by decide +kernel⟩

/-- Context descriptors and launch records in hand: an installation, a teardown and a reserved bit. -/
def ctx0 : Context := { asid := 7, preempt := 0, home := 0, age := 0, root := 0, hentry := 0, harg := 0, save := 0, savecnt := 0 }
def withCtx (x : Partition) : Partition := { x with contexts := [ctx0, { ctx0 with asid := 0 }] }
def desc64 (l : List Nat) (f : Partition → Partition) : State := (Sdr l id).modPart 0 f
/-- A strand whose command has begun. -/
def Tbegun (l : List Nat) (pos : Nat) : Strand := { Tdr l with bulk := some ⟨[], 1, pos, 0⟩ }
def begun64 (l : List Nat) (pos : Nat) (f : Partition → Partition) : State := (sample (Tbegun l pos) id).modPart 0 f
def record0 : List Nat := [0x10000, 2 ^ 24 + 1 * 256, 0, 0, 0, 0, 3 * 2 ^ 56, 3 * 2 ^ 56]
def launchRead (l : List Nat) : Tr :=
  (desc64 l withCtx).resolve (scalarCtx C 0 (Tdr l)) (Tdr l) .va ((Tdr l).reg 3) 0 kRead (memberInfo 4 2 0)
def recordOf (l : List Nat) : Vector Word 8 := Vector.ofFn (fun i : Fin 8 => dwAt (Tdr l).rbuf (8 * i.val))
theorem test_witness_ContextsAndLaunches :
    (let l := [2 ^ 63 + 7, 0, 0, 0, 0, 0, 0, 0]
     PReady (desc64 l withCtx) C 0 (Tdr l) .none [3, 1] ∧ (Tdr l).hasRead ((Tdr l).reg 3) 64 64 (Tdr l).rbuf ∧
     (((desc64 l withCtx).part 0).map (fun x => (x.live.length, x.launches.length, x.tearing)) = some (1, 0, []) ∧
       (Tdr l).bulk.isSome = false ∧ (dwAt (Tdr l).rbuf 0).toNat = 2 ^ 63 + 7) ∧
     ((desc64 l (fun x => { withCtx x with tearing := [7] })).part 0).map (fun x => x.tearing) = some [7]) ∧
    (let l := [7, 0, 0, 0, 0, 0, 0, 0]
     (dwAt (Tdr l).rbuf 0).toNat = 7 ∧ (desc64 l withCtx).context 0 7 = some ctx0 ∧
     ((desc64 l withCtx).part 0).any (fun x => x.launches.all (fun y => decide (y.asid ≠ 7))) = true ∧
     PReady (begun64 l 0 (fun x => { withCtx x with tearing := [7] })) C 0 (Tbegun l 0) .none [3] ∧ (Tbegun l 0).bulk.isSome = true) ∧
    dwAt (Tdr [7, 0, 0, 0, 0, 0, 0, 1]).rbuf 56 ≠ 0 ∧
    (Ready (desc64 record0 withCtx) C 0 (Tdr record0) .none [3, 1] ∧ (desc64 record0 withCtx).settled C (Tdr record0) false ∧
     (Tdr record0).hasRead ((Tdr record0).reg 3) 64 64 (Tdr record0).rbuf ∧ trOk (launchRead record0) 0x10100 0x102BF = true ∧
     (trState (launchRead record0)).recRefused 0 (Tdr record0).asid (recordOf record0) = none) ∧
    (let l := [0x10001, 0, 0, 0, 0, 0, 0, 0]
     trOk (launchRead l) 0x10100 0x102BF = true ∧ ((trState (launchRead l)).recRefused 0 (Tdr l).asid (recordOf l)).isSome = true ∧
     ((trState (launchRead l)).part 0).map (fun x => decide (x.refusals + 1 < 2 ^ 32)) = some true) ∧
    (Ready Sq C 0 Tq .none [4, 1] ∧ Sq.handleLocal C (Tq.reg 4) = true) :=
  ⟨⟨pready_of (by decide +kernel) rfl, read_of (by decide +kernel), by decide +kernel, by decide +kernel⟩,
   ⟨by decide +kernel, by decide +kernel, by decide +kernel, pready_of (by decide +kernel) rfl, by decide +kernel⟩, by decide +kernel,
   ⟨ready_of (by decide +kernel), settled_of (by decide +kernel), read_of (by decide +kernel), by decide +kernel, by decide +kernel⟩,
   by decide +kernel, ⟨ready_of (by decide +kernel), by decide +kernel⟩⟩

/-- A log slot with a retained seam; commands in registers. -/
def seam0 : Seam := { n := 5, starts := 0, nosnap := false, frayed := false, launches := [], crews := [], chans := [], parts := [] }
def log0 (policy : Nat) : LogSlot :=
  { asid := 0, policy := policy, shsize := 1, shbase := 0x1000, maxseam := 4, rsv := 0, snap := 0, snapsz := 0, snapAsid := 0, cur := 6,
    starts := 0, seams := [seam0], busy := none, frozen := false, lost := false }
def withLog (policy : Nat) (x : Partition) : Partition := { withCtx x with logs := [(1, log0 policy)] }
def cmd (op slot num : Nat) : Word := wd (op * 2 ^ 60 + slot * 2 ^ 56 + num)
def To : Strand := strand [(2, cmd 1 1 0), (3, cmd 2 1 5), (4, cmd 3 1 6), (5, cmd 4 1 0), (6, cmd 2 1 9), (7, cmd 5 0 0), (8, cmd 4 0 0)] id
def So (policy : Nat) : State := (sample To id).modPart 0 (withLog policy)
def logWords (w h m : Nat) : List Nat := [w, h, m, 0, 0, 0, 0, 0]
theorem test_witness_LogSlotsAndCommands :
    (let l := logWords (2 ^ 63 + 2 * 2 ^ 56 + 7) (8191 * 2 ^ 48) (64 * 2 ^ 16)
     PReady (desc64 l (withLog 0)) C 0 (Tdr l) .none [3, 1] ∧ (Tdr l).hasRead ((Tdr l).reg 3) 64 64 (Tdr l).rbuf ∧
     (Tdr l).bulk = none ∧ (dwAt (Tdr l).rbuf 16).toNat / 2 ^ 16 % 128 = 64 ∧
     (PReady (begun64 l 0 (withLog 0)) C 0 (Tbegun l 0) .none [3] ∧ (Tbegun l 0).bulk = some ⟨[], 1, 0, 0⟩) ∧
     (PReady (begun64 l 768 (withLog 0)) C 0 (Tbegun l 768) .none [3] ∧ (Tbegun l 768).bulk = some ⟨[], 1, 768, 0⟩)) ∧
    ((dwAt (Tdr (logWords (2 ^ 56) 0 0)).rbuf 0).toNat < 2 ^ 63 ∧
      (dwAt (Tdr (logWords (2 ^ 63 + 7) (2 ^ 48) (65 * 2 ^ 16))).rbuf 16).toNat / 2 ^ 16 % 128 = 65) ∧
    (PReady (So 0) C 0 To .none [2, 3, 4, 5, 6, 7, 8] ∧ ((So 0).part 0).map (fun x => (List.lookup 0 x.logs, List.lookup 1 x.logs)) =
      some (none, some (log0 0)) ∧ (So 0).unpickRefused 0 1 5 To.uid false = none ∧ (log0 0).window 5 = [seam0] ∧
      ((So 0).unpickRefused 0 1 9 To.uid false).isSome = true ∧
      ((So 0).part 0).map (fun x => (So 0).contextStill 0 x 0 (some To.uid)) = some true) ∧
    (S0.logSlotOf (S0.partOf C) T0.asid = none ∧ (So 0).logSlotOf 0 To.asid = some (1, log0 0) ∧
      (So 2).logSlotOf 0 To.asid = some (1, log0 2)) ∧ (So 0).settled C To false :=
  ⟨⟨pready_of (by decide +kernel) rfl, read_of (by decide +kernel), rfl, by decide +kernel,
    ⟨pready_of (by decide +kernel) rfl, by decide +kernel⟩, ⟨pready_of (by decide +kernel) rfl, by decide +kernel⟩⟩,
   by decide +kernel, ⟨pready_of (by decide +kernel) rfl, by decide +kernel⟩, by decide +kernel, settled_of (by decide +kernel)⟩

/-- Invalidations, traps, replay entries, mirrors and retirement: registers with lengths, a frame, and coordinates. -/
def Ti : Strand := strand [(2, wd (2 ^ 63 + 3 * 2 ^ 16 + 9)), (3, 0x123456789ABC), (4, 0), (5, 7)] id
def Si : State := sample Ti id
def entry0 : Replay := { id := 0, pa := 0x20000010, data := 55, rl := false, why := 1, state := 0, size := 8, op := .st, va := 0x20000010 }
def frame0 (rq : List Replay) : Frame :=
  { st := { T0 with pc := 0x7770, rq := rq, uid := 5 }, kind := 1, ilen := 4, info := #v[1, 2, 3, 4], brkskip := true }
def Tn : Strand := strand [(2, wd (frameOff 0)), (3, 0), (4, 0x100), (5, 1), (6, 7), (7, 0x1234)] (fun st =>
  { st with handlerOf := some 0, pc := 0x10200 })
def Sn (rq : List Replay) : State := sample Tn (fun k => { k with frozen := [(0, frame0 rq)] })
/-- Frame 1 holds nothing, and core D of another wafer cannot be reached. -/
def farEntry : Replay := { entry0 with pa := 2 ^ 46 + 16 }
/-- Mirrors: a page with a mirror at core D, LN 1, and a mirror table at 0x80000. -/
def Tmi : Strand := strand [(2, 0x4000000), (3, 0x10100), (4, 0), (5, 0x10104), (6, 0x100)] id
def mirrored (k : Core) : Core :=
  { k with cfg := { k.cfg with mirtab := 0x80001 },
           coreTlb := [{ fetchTlb with leaf := sampleLeaf },
             { fetchTlb with shift := 26, vpn := 1, leaf := wd (0x4000000 + 0x12BF) + wd (5 * 2 ^ 52) }] }
def Tmr (l : List Nat) : Strand := { Tmi with rbuf := (l.map (leBytes 8)).flatten ++ List.replicate (128 - 8 * l.length) 0 }
def Smi (l : List Nat) : State := pair (Tmr l) mirrored id
/-- The hypotheses of MIRSET, up to whether the record fits. -/
def mirFits (l : List Nat) : Bool :=
  let t := trState ((Smi l).xlate (placeCtx C (Tmr l)) ((Tmr l).reg 2) kWrite)
  let b := (Tmr l).rbuf
  match t.pageAt (placeCtx C (Tmr l)) ((Tmr l).reg 2) with
  | some (leaf, shift, home) => lfMirror leaf && lfMidx leaf == (dwAt b 0).toNat % 256 && (shift == 16 || shift == 26) &&
      t.mirrorsFit (t.partOf C) home (2 ^ shift) (recordMirrors b ((dwAt b 0).toNat / 2 ^ 8 % 16)) && (t.core C).cfg.mirtab.getLsbD 0
  | none => false
def rec5 : List Nat := [5 + 256, 2 ^ 48 + 0x4000000]
def update0 : Msg := { id := 1, src := C, dst := D, isReturn := false, tag := none, fwd := 0, body := .mirrorUpdate 5 0 [] [] }
theorem test_witness_SupervisorOperations :
    (PReady Si C 0 Ti .none [2, 3, 4, 5] ∧ Si.part (Si.partOf C) = some (fetchPart none) ∧ Si.settled C Ti false ∧ Ti.reg 4 = 0 ∧
      Ti.reg 5 ≠ 0) ∧
    (Ti.handlerOf = none ∧ PReady (Sn [entry0]) C 0 Tn .none [2, 3, 4, 5, 6, 7] ∧
      (Tn.handlerOf = some 0 ∧ List.lookup 0 ((Sn [entry0]).core C).frozen = some (frame0 [entry0]) ∧ Tn.vctx = none ∧ Tn.qb = none ∧
        ((Sn [entry0]).core C).vectorOpen Tn.uid = false) ∧ (Sn [entry0]).settled C Tn true) ∧
    (frameIndex (Tn.reg 7) = none ∧ frameIndex (Tn.reg 2) = some 0 ∧ frameIndex (wd (frameOff 1)) = some 1 ∧
      ((Sn [entry0]).core C).reinjOpen 0 = false ∧ ((Sn [entry0]).core C).replayStrand 1 = none ∧
      ((Sn [entry0]).core C).replayStrand 0 = some (frame0 [entry0]).st ∧ (Tn.reg 6).toNat % 8 = 7 ∧ [entry0][7]? = none ∧
      (Tn.reg 4).getLsbD 8 = true ∧ (Tn.reg 4).toNat % 8 = 0 ∧ (Tn.reg 5).toNat % 8 = 1 ∧ (Tn.reg 5).getLsbD 8 = false ∧
      ([entry0, entry0][1]? = some entry0 ∧ entry0 ∈ [entry0, entry0].take 1 ∧ entry0.state = 0) ∧
      ([{ entry0 with state := 1 }, entry0][1]? = some entry0 ∧ [{ entry0 with state := 1 }][0]? = some { entry0 with state := 1 })) ∧
    (isHost entry0.pa = false ∧ (Sn [entry0]).waferDown C.w (homeOf entry0.pa).w = false ∧ (Sn [entry0]).farRefuses C entry0.pa = false ∧
      homeOf entry0.pa = C ∧ inControl (offOf entry0.pa) = false ∧ entry0.pa % 16 + entry0.size ≤ 16 ∧
      ((Sn [entry0]).landsAt 9 entry0.pa).isSome = true ∧
      CalmHome (Sn [entry0]) C ((Sn [entry0]).replayLeaf (placeCtx C (frame0 [entry0]).st) entry0) (frame0 [entry0]).st.stat.log) ∧
    (let e : Replay := { entry0 with pa := coreBase D + 0x20000010 }
     let s := pair Tn (fun k => { k with frozen := [(0, frame0 [e])] }) id
     PReady s C 0 Tn .none [2, 3] ∧ (s.core C).replayStrand 0 = some (frame0 [e]).st ∧ s.waferDown C.w (homeOf e.pa).w = false ∧
       s.farRefuses C e.pa = false ∧ homeOf e.pa = D ∧ D.w = C.w ∧ (s.landsAt 9 e.pa).isSome = true) ∧
    (let s : State := { Sn [farEntry] with pkg := { (Sn [farEntry]).pkg with dezalDown := [1] } }
     PReady s C 0 Tn .none [2, 3] ∧ isHost farEntry.pa = false ∧ s.waferDown C.w (homeOf farEntry.pa).w = true) ∧
    (PReady (Smi rec5) C 0 (Tmr rec5) .none [2, 3, 4, 6] ∧ (Smi rec5).settled C (Tmr rec5) false ∧
      trOk ((Smi rec5).xlate (placeCtx C (Tmr rec5)) ((Tmr rec5).reg 2) kWrite) 0x4000000 (wd (0x4000000 + 0x12BF) + wd (5 * 2 ^ 52)) = true ∧
      (Tmr rec5).hasRead ((Tmr rec5).reg 3) 64 128 (Tmr rec5).rbuf ∧ mirFits rec5 = true ∧
      mirFits [6 + 256, 2 ^ 48 + 0x4000000] = false ∧
      (Smi []).updatesOpen 0 = false ∧ State.updatesOpen { Smi [] with net := [update0] } 0 = true ∧ Tmi.reg 4 = 0 ∧ Tmi.reg 6 ≠ 0 ∧
      (match State.mirsyncPages (0x100 / 65536 + 2) (Smi []) (placeCtx C (Tmr [])) (Tmi.reg 2) 0x100 with
        | .ok _ _ => true | _ => false) = true) :=
  ⟨⟨pready_of (by decide +kernel) rfl, by decide +kernel, settled_of (by decide +kernel), by decide +kernel, by decide +kernel⟩,
   ⟨by decide +kernel, pready_of (by decide +kernel) rfl, by decide +kernel, settled_of (by decide +kernel)⟩, by decide +kernel,
   ⟨by decide +kernel, by decide +kernel, by decide +kernel, by decide +kernel, by decide +kernel, by decide +kernel, by decide +kernel,
    home_of (by decide +kernel)⟩,
   ⟨pready_of (by decide +kernel) rfl, by decide +kernel⟩, ⟨pready_of (by decide +kernel) rfl, by decide +kernel⟩,
   ⟨pready_of (by decide +kernel) rfl, settled_of (by decide +kernel), by decide +kernel, read_of (by decide +kernel), by decide +kernel⟩⟩

/-- RETIRE of LN 0 to LN 1 by core D; and the same once it has begun, with the new map under way and published. -/
def Tre : Strand := strand [(2, 0), (3, 1), (4, 7)] id
def Trb : Strand := { Tre with bulk := some ⟨[], 0, 0, 0⟩ }
def mapping (s : State) : State := s.modPart 0 (fun x => { x with newMap := some ⟨[C, D], 0x100, 0, none, none⟩ })
theorem test_witness_SupervisorOperations_retire :
    (let s := pair Tre id id
     PReady s C 0 Tre .none [2, 3, 4] ∧ (Tre.bulk = none ∧ s.lnCore 0 0 = some C ∧ s.lnCore 0 1 = some D ∧ s.lnCore 0 7 = none ∧
       64 ∉ (s.core C).reserved ∧ s.retireRefused 0 0 0 = true ∧ s.retireRefused 0 0 1 = false ∧ s.retireStill 0 C Tre.uid = true ∧
       (s.part 0).map (fun x => x.newMap.isSome) = some false ∧ ((mapping s).part 0).map (fun x => x.newMap.isSome) = some true) ∧
       s.settled C Tre false) ∧
    (let s := pair Trb id id
     PReady s C 0 Trb .none [2, 3] ∧ (s.part 0).map (fun x => x.newMap) = some none ∧ PReady (mapping s) C 0 Trb .none [2, 3]) :=
  ⟨⟨pready_of (by decide +kernel) rfl, by decide +kernel, settled_of (by decide +kernel)⟩,
   ⟨pready_of (by decide +kernel) rfl, by decide +kernel, pready_of (by decide +kernel) rfl⟩⟩

/-- Save records at 0x4000000 in a page of 64 MiB; their headers stand in hand. -/
def large (k : Core) : Core :=
  { k with coreTlb := [{ fetchTlb with leaf := sampleLeaf }, { fetchTlb with shift := 26, vpn := 1, leaf := wd (0x4000000 + 0x2BF) }] }
def Tsv (hdr : List Nat) (j : Option Bulk) : Strand :=
  { strand [(2, 0x4000000)] id with rbuf := (hdr.map (leBytes 8)).flatten, bulk := j }
/-- A strand of launch slot 3 that is stopped, and one that runs. -/
def stopped3 : Strand := { T0 with uid := 8, lslot := some 3, run := .stopped none }
def running3 : Strand := { stopped3 with run := .ready }
def Ssv (me st : Strand) : State := sample me (fun k => { large k with slots := k.slots ++ [(1, st)] })
def hdr3 : List Nat := [3 * 2 ^ 16, 0]
def hdrOk : List Nat := [3 * 2 ^ 16, 0, 0, 0x400, 0x100, 0x100, 0x200, 0x300]
def saveAt (hdr : List Nat) (j : Bulk) (kind fn : Nat) : Tr :=
  (Ssv (Tsv hdr (some j)) stopped3).resolve (scalarCtx C 0 (Tsv hdr (some j))) (Tsv hdr (some j)) .va 0x4000000 j.pos kind (memberInfo 5 3 fn)
/-- The record of a load that has arrived whole. -/
def loaded : Bulk := ⟨memWrite [] 0 ((hdrOk.map (leBytes 8)).flatten), 0x400, 0x400, 1⟩
def Sld : State := Ssv (Tsv hdrOk (some loaded)) running3
def loadRec : SavedCore := Sld.parseRecord (loadPlace C (Tsv hdrOk none).rbuf loaded.img) loaded.img
theorem test_witness_SavesAndPartitionOperations_saves :
    (PReady (Ssv (Tsv hdr3 none) running3) C 0 (Tsv hdr3 none) .none [2] ∧ (Tsv hdr3 none).hasRead 0x4000000 64 16 (Tsv hdr3 none).rbuf ∧
      ((Ssv (Tsv hdr3 none) running3).core C).allStopped (inSlot 0 3) (recInSlot 0 3) = false) ∧
    (PReady (Ssv (Tsv hdr3 none) stopped3) C 0 (Tsv hdr3 none) .none [2] ∧
      ((Ssv (Tsv hdr3 none) stopped3).core C).allStopped (inSlot 0 3) (recInSlot 0 3) = true ∧
      ((Ssv (Tsv hdr3 none) stopped3).badPad C).isNone = true ∧ ((Ssv (Tsv hdr3 none) stopped3).core C).merges = []) ∧
    (let j : Bulk := ⟨[], 0x400, 0x3F0, 1⟩
     PReady (Ssv (Tsv hdr3 (some j)) stopped3) C 0 (Tsv hdr3 (some j)) .none [2] ∧
     GranuleAt (Ssv (Tsv hdr3 (some j)) stopped3) (scalarCtx C 0 (Tsv hdr3 (some j))) (Tsv hdr3 (some j)) 0x4000000 0x3F0 kWrite
       (memberInfo 5 3 2) 0x40003F0 (wd (0x4000000 + 0x2BF)) (trState (saveAt hdr3 j kWrite 2)) ∧
     CalmCore (trState (saveAt hdr3 j kWrite 2)) C (Tsv hdr3 (some j))) ∧
    PReady (Ssv (Tsv hdr3 (some ⟨[], 0x400, 0x400, 1⟩)) stopped3) C 0 (Tsv hdr3 (some ⟨[], 0x400, 0x400, 1⟩)) .none [2] ∧
    ((Tsv hdrOk none).hasRead 0x4000000 64 64 (Tsv hdrOk none).rbuf ∧ recordOk (memWrite [] 0 (Tsv hdrOk none).rbuf) = true ∧
      recordOk (memWrite [] 0 (Tsv (hdrOk.take 7 ++ [0]) none).rbuf) = false) ∧
    (let j : Bulk := ⟨[], 0x400, 0x3F0, 1⟩
     PReady (Ssv (Tsv hdrOk (some j)) stopped3) C 0 (Tsv hdrOk (some j)) .none [2] ∧
     GranuleAt (Ssv (Tsv hdrOk (some j)) stopped3) (scalarCtx C 0 (Tsv hdrOk (some j))) (Tsv hdrOk (some j)) 0x4000000 0x3F0 kRead
       (memberInfo 5 3 3) 0x40003F0 (wd (0x4000000 + 0x2BF)) (trState (saveAt hdrOk j kRead 3))) ∧
    (PReady Sld C 0 (Tsv hdrOk (some loaded)) .none [2] ∧ loaded.len ≤ loaded.pos ∧ Sld.roomFor C loadRec = true ∧
      State.roomFor { Sld with pkg := Sld.pkg } C { loadRec with vecs := List.replicate 9 0 } = false) ∧
    (PReady (Ssv (Tsv hdrOk (some ⟨[], 0, 0, 2⟩)) running3) C 0 (Tsv hdrOk (some ⟨[], 0, 0, 2⟩)) .none [2] ∧
      ((Ssv (Tsv hdrOk (some ⟨[], 0, 0, 2⟩)) running3).core C).nextReplay 0 0 = none) :=
  ⟨⟨pready_of (by decide +kernel) rfl, read_of (by decide +kernel), by decide +kernel⟩,
   ⟨pready_of (by decide +kernel) rfl, by decide +kernel⟩,
   ⟨pready_of (by decide +kernel) rfl, granule_of (by decide +kernel) (by decide +kernel) (by decide +kernel),
    calm_of (by decide +kernel) (quiet_of (by decide +kernel))⟩, pready_of (by decide +kernel) rfl,
   ⟨read_of (by decide +kernel), by decide +kernel⟩,
   ⟨pready_of (by decide +kernel) rfl, granule_of (by decide +kernel) (by decide +kernel) (by decide +kernel)⟩,
   ⟨pready_of (by decide +kernel) rfl, by decide +kernel⟩, ⟨pready_of (by decide +kernel) rfl, by decide +kernel⟩⟩

/-- Partition operations: a strand of the control core (LN 0xFFFF) with its descriptor in hand. -/
def Tys (l : List Nat) (j : Option Bulk) : Strand :=
  { strand [(2, 0x10100)] id with rbuf := (l.map (leBytes 8)).flatten ++ List.replicate (128 - 8 * l.length) 0, bulk := j }
def Ty : Strand := Tys [] none
def Sy (ln : Nat) (st : Strand) : State := sample st (fun k => { k with cfg := { k.cfg with ln := ln } })
def sysWord (l : List Nat) (i : Nat) : Nat := (dwAt (Tys l none).rbuf (8 * i)).toNat
def pass (s : State) (p : Nat) : Bool × Nat := (s.holdPass p).map id Prod.fst
/-- A launch of two gangs, without preemption, in state `queued`, and the context of its address space. -/
def words0 (count : Nat) (dep : Word) : Vector Word 8 :=
  #v[0x40000, wd (2 ^ 63 + count * 2 ^ 24 + 2 * 2 ^ 16 + 2 * 2 ^ 8 + 1 * 16), 0, 0, dep, 0x99, wd (3 * 2 ^ 56), wd (3 * 2 ^ 56)]
def launch0 : Launch :=
  { asid := 3, words := words0 1 0, level := 2, entered := 0, order := 4, home := 1, bslot := 40, seq := 9, state := .queued, slot := none,
    nextGang := 0, gangs := [], endedGangs := 0, startedGangs := 0, saved := [], fault := none, more := 0, cancelled := false, torn := false,
    carried := [], sweep := none, stopping := false, dumping := false, startSeam := false }
def gang0 : Gang := ⟨0, 0, 0, true, false, false, 0, []⟩
def context0 : Context := ⟨3, 0xFF, 1, 5, 0, 0x8001, 0x77, 0x100000, 10⟩
def withLaunch (l : Launch) (x : Partition) : Partition := { x with contexts := [context0], launches := [l], launchNo := 5 }
def launched (l : Launch) (s : State) : State := s.modPart 0 (withLaunch l)
def running0 : Launch :=
  { launch0 with words := (words0 1 0).set 1 (wd (2 ^ 24)), slot := some 2, state := .running, gangs := [gang0], nextGang := 1, startedGangs := 1 }
def hold : List Nat := [2 ^ 56]
def groomed (b : Bool) : State := sample Ty (fun k => { k with cfg := { k.cfg with groom := b } })
theorem test_witness_SavesAndPartitionOperations_quiesce :
    (PReady (Sy 0 (Tys hold none)) C 0 (Tys hold none) .none [2, 4] ∧ PReady (Sy 0xFFFF (Tys hold none)) C 0 (Tys hold none) .none [2, 4] ∧
      (Sy 0xFFFF (Tys hold none)).settled C (Tys hold none) false ∧ ((Tys hold none).reg 2).toNat % 64 = 0 ∧
      (Tys hold none).rbuf.length = 128) ∧
    (((Sy 0 (Tys hold none)).core C).cfg.ln = 0 ∧ ((Sy 0xFFFF (Tys hold none)).core C).cfg.ln = 0xFFFF) ∧
    (sysWord [0] 0 = 0 ∧ sysWord [2 ^ 56 + 2 ^ 48] 0 / 2 ^ 48 % 16 = 1 ∧ ((Sy 0xFFFF Ty).part 1).isNone = true ∧ sysWord [2 ^ 57] 0 = 2 ^ 57 ∧
      ((Sy 0xFFFF Ty).part 0).isSome = true) ∧
    (pass (launched { running0 with stopping := true } (Sy 0xFFFF (Tys hold none))) 0 = (true, 0) ∧
      pass (Sy 0xFFFF (Tys hold none)) 0 = (false, 0) ∧ pass (launched running0 (Sy 0xFFFF (Tys hold none))) 0 = (false, 1) ∧
      ((Sy 0xFFFF (Tys hold none)).part 0).any (fun x => x.launches.all (fun l => l.slot.isNone)) = true) ∧
    (PReady (groomed true) C 0 Ty .none [] ∧ ((groomed true).core C).cfg.groom = true ∧ ((groomed false).core C).cfg.groom = false) :=
  ⟨⟨pready_of (by decide +kernel) rfl, pready_of (by decide +kernel) rfl, settled_of (by decide +kernel), by decide +kernel,
     by decide +kernel⟩, by decide +kernel, by decide +kernel, by decide +kernel, pready_of (by decide +kernel) rfl, by decide +kernel⟩

/-- Partition 0 with the field of core C, valid and not; and a switch of VF 2 out of it. -/
def part1 : List Nat := [2 ^ 4]
def check1 (l : List Nat) : Option (Nat × Nat × Nat) := (Sy 0xFFFF (Tys l none)).partCheck 0 (partDesc 0 (Tys l none).rbuf)
/-- A message of partition 0 in the network. -/
def tagged (s : State) : State := { s with net := [{ update0 with tag := some ⟨0, 0⟩ }] }
def openOf (s : State) (l : List Nat) : Bool := s.taggedOpen (s.groupOf 0 (partDesc 0 (Tys l none).rbuf))
def publishing (s : State) (l : List Nat) : Bool :=
  (s.groupOf 0 (partDesc 0 (Tys l none).rbuf)).any (fun q => (s.part q).any (fun x => x.newMap.isSome))
def switch0 : List Nat := [3 * 2 ^ 40 + 2 * 2 ^ 8, 0x10000]
/-- What WSWITCH calls a bad descriptor, with VF number 0 in the partition. -/
def good2 (l : List Nat) : Bool :=
  let b := (Tys l none).rbuf
  let w := sysWord l 0
  w / 2 ^ 46 == 0 && w / 2 ^ 38 % 4 == 0 && w / 2 ^ 20 % 2 ^ 12 == 0 && w / 2 ^ 14 % 4 == 0 && w % 256 == 0 &&
    (List.range 13).all (fun i => dwAt b (24 + 8 * i) == 0) && ((Sy 0xFFFF (Tys l none)).part 0).any (fun x => x.vf == w / 2 ^ 32 % 64) &&
    sysWord l 1 % 2 ^ 16 == 0 && sysWord l 2 % 2 ^ 16 == 0
def Ssw : State := Sy 0xFFFF (Tys switch0 none)
def switchRes : Tr := (Ssw.holdPass 0).2.2.resolve (placeCtx C (Tys switch0 none)) (Tys switch0 none) .va 0x10000 0 kWrite (memberInfo 5 4 2)
theorem test_witness_SavesAndPartitionOperations_partset :
    (PReady (Sy 0xFFFF (Tys part1 none)) C 0 (Tys part1 none) .none [2, 4] ∧ (Sy 0xFFFF (Tys part1 none)).settled C (Tys part1 none) false ∧
      check1 part1 = none ∧ check1 [0] = none ∧ (partDesc 0 (Tys part1 none).rbuf).valid = true ∧ (partDesc 0 (Tys [0] none).rbuf).valid = false ∧
      check1 [2 ^ 5] = some (2, 0, 0) ∧ openOf (Sy 0xFFFF (Tys part1 none)) part1 = false ∧
      openOf (tagged (Sy 0xFFFF (Tys part1 none))) part1 = true ∧ publishing (Sy 0xFFFF (Tys part1 none)) part1 = false ∧
      publishing (mapping (Sy 0xFFFF (Tys part1 none))) part1 = true) ∧
    (let st := Tys part1 (some ⟨[], 0, 0, 2⟩)
     PReady (Sy 0xFFFF st) C 0 st .none [2, 4] ∧ publishing (Sy 0xFFFF st) part1 = false) ∧
    (PReady Ssw C 0 (Tys switch0 none) .none [2, 4] ∧ sysWord [2 ^ 16] 0 / 2 ^ 16 % 16 = 1 ∧ (Ssw.part 1).isNone = true ∧
      good2 [1] = false ∧ good2 switch0 = true ∧ dwAt (Tys switch0 none).rbuf 8 = 0x10000 ∧ sysWord switch0 2 = 0) ∧
    (pass (launched { running0 with stopping := true } Ssw) 0 = (true, 0) ∧ pass (launched running0 Ssw) 0 = (false, 1) ∧
      pass Ssw 0 = (false, 0) ∧ (Ssw.part 0).any (fun x => x.launches.all (fun l => l.slot.isNone)) = true ∧
      trOk switchRes 0x10000 sampleLeaf = true ∧ ((trState switchRes).part 0).isSome = true) :=
  ⟨⟨pready_of (by decide +kernel) rfl, settled_of (by decide +kernel), by decide +kernel⟩, ⟨pready_of (by decide +kernel) rfl, by decide +kernel⟩,
   ⟨pready_of (by decide +kernel) rfl, by decide +kernel⟩, by decide +kernel⟩

/-! ### Messages between the cores C and D -/

/-- The state with one message in the network, sent from core a to core b. -/
def sent (s : State) (a b : CoreId) (back : Bool) (x : Body) : State := s.send a b back none x
def first (s : State) : Msg := s.net.getD 0 update0
theorem arrives_of {s : State} {b : Body}
    (h : s.net[0]? = some (first s) ∧ s.deliverable 0 (first s) = true ∧ (s.core (first s).dst).cfg.fwdValid = false ∧ (first s).body = b) :
    Arrives s 0 (first s) b := by
  obtain ⟨here, order, kept, body⟩ := h
  exact ⟨here, order, kept, body⟩
def two (f : Strand → Strand) (h hd : Core → Core) : State := pair (f T0) h hd
def coat7 : Coat := { coat0 with st := { T0 with uid := 77 }, entry := 5, bounce := 2 }
def coatL : Coat := { coat7 with st := { coat7.st with lslot := some 2, cln := 1 } }
def coatHome : Coat := { coatL with src := C, dst := D }
def full32 (k : Core) : Core :=
  { k with slots := (List.range 32).map (fun i => (i, T0)), cfg := { k.cfg with cloaklim := 0, spillcfg := 0 } }
/-- A breakpoint at the strand's address. -/
def broken (k : Core) : Core := { k with dbg := { k.dbg with bkpt := k.dbg.bkpt.set 1 (0x10001, 0x10000) } }
def crew7 : Crew := { crew0 with asid := 3, taskv := 0x1111, gangv := 0x2222 }
def retired (k : Core) : Core := { k with cfg := { k.cfg with fwdValid := true, heir := 1 } }
theorem test_witness_JourneysOfStrands :
    ((two id broken id).strandAt C 0 = some T0 ∧ T0.isReady = true ∧ T0.brkskip = false ∧ ((two id broken id).core C).dbg.stop = false ∧
      ((two id broken id).core C).breakpoint T0 = some 1) ∧
    (((S0.core C).slots.filter (fun e => e.1 / 16 = 0 && S0.wouldIssue C (S0.core C) e.2)).length ≤ 16) ∧
    (let st : Strand := { T0 with run := .departing D none }
     let s := pair st id id
     s.strandAt C 0 = some st ∧ st.posts = [] ∧ st.lds = [] ∧ st.trap = none ∧ (s.core C).freeEntry = some 0 ∧ ((s.core C).nextCoat).isNone = true) ∧
    Arrives (sent (two id id id) D C false (.coat coat7)) 0 (first (sent (two id id id) D C false (.coat coat7))) (.coat coat7) ∧
    (((two id full32 id).core C).admits coat7 = none ∧ ((two id id id).core C).admits coat7 = some 16 ∧
      { coat7 with needAnnex := true }.needAnnex = true ∧ coatL.needAnnex = false ∧ coatL.st.lslot = some 2 ∧
      (((two id id id).core C).descOf coatL.st.cln 2).isNone = true ∧ (two id id id).crewCore C coatL.st = some D ∧
      coat7.st.lslot = none ∧ coat7.needAnnex = false) ∧
    (let x : Coat := { coatL with needDesc := true, place := 4 }
     let s := sent (two id (fun k => { k with admitting := [x] }) id) D C true (.descReply 2 1 (some crew7))
     Arrives s 0 (first s) (.descReply 2 1 (some crew7)) ∧ (s.core (first s).dst).admitting = [x] ∧ (s.core (first s).dst).cfg.ln ≠ 1 ∧
       x.st.cln = 1 ∧ x.st.lslot = some 2 ∧ x.needAnnex = false ∧ x.place < 32) ∧
    (let x : Coat := { coatL with needAnnex := true, place := 4 }
     let s := sent (two id (fun k => { k with admitting := [x] }) id) D C true (.annexReply 77)
     Arrives s 0 (first s) (.annexReply 77) ∧ (s.core (first s).dst).admitting = [x] ∧ x.st.uid = 77 ∧ x.needDesc = false ∧ x.place < 32) ∧
    (let s := sent (two id id id) D C true (.admitted 5)
     Arrives s 0 (first s) (.admitted 5)) ∧
    (let s := sent (two id id id) D C true (.bounced coatHome)
     Arrives s 0 (first s) (.bounced coatHome) ∧ coatHome.fwd < 8) ∧
    (let s := sent (two id id id) D C true (.bounced { coatHome with fwd := 8 })
     Arrives s 0 (first s) (.bounced { coatHome with fwd := 8 })) ∧
    (let s := two id (fun k => { k with departures := [(5, Departure.mk coatL true 0 .clean)] }) id
     List.lookup 5 (s.core C).departures = some (Departure.mk coatL true 0 .clean) ∧ 0 ≤ s.cycle ∧ coatL.st.isStopped = false) ∧
    (let s := sent (two id retired id) D C false (.coat coatL)
     let m := first s
     s.net[0]? = some m ∧ s.deliverable 0 m = true ∧ m.body = .coat coatL ∧ m.isReturn = false ∧ (s.core m.dst).cfg.fwdValid = true ∧
       s.lnCore (s.partOf m.dst) (s.core m.dst).cfg.heir = some D ∧ coatL.fwd + 1 < 8 ∧ m.fwd % 16 < 8) ∧
    (let s := sent (two id retired id) D C false (.coat { coatL with fwd := 7 })
     let m := first s
     s.net[0]? = some m ∧ s.deliverable 0 m = true ∧ m.body = .coat { coatL with fwd := 7 } ∧ m.isReturn = false ∧
       (s.core m.dst).cfg.fwdValid = true) ∧
    (let s := sent (two id retired id) D C false (.annexReq 5 77)
     let m := first s
     s.net[0]? = some m ∧ s.deliverable 0 m = true ∧ m.body = .annexReq 5 77 ∧ m.isReturn = false ∧ (s.core m.dst).cfg.fwdValid = true ∧
       m.fwd % 16 < 8 ∧ s.lnCore (s.partOf m.dst) (s.core m.dst).cfg.heir = some D) :=
  ⟨by decide +kernel, by decide +kernel, by decide +kernel, arrives_of (by decide +kernel), by decide +kernel,
   ⟨arrives_of (by decide +kernel), by decide +kernel⟩, ⟨arrives_of (by decide +kernel), by decide +kernel⟩, arrives_of (by decide +kernel),
   ⟨arrives_of (by decide +kernel), by decide +kernel⟩, arrives_of (by decide +kernel), by decide +kernel, by decide +kernel,
   by decide +kernel, by decide +kernel⟩

def req (op : MemOp) (k : Cont) : MemReq :=
  { pa := coreBase C + 0x20000100, va := 0x20000100, op := op, cont := k, aq := false, rl := false, leaf := 0, limit := none }
def refD : Ref := ⟨D, 3, 55⟩
def refC : Ref := ⟨C, 0, 9⟩
/-- A strand with the number that refC names. -/
def nine (f : Strand → Strand) (st : Strand) : Strand := f { st with uid := 9 }
def awaiting (cls : WaitClass) (r : MemReq) : Strand → Strand := nine (fun st => { st with run := .await cls r })
def stopped (k : Core) : Core := { k with dbg := { k.dbg with stop := true } }
/-- A core that its partition has left: its router turns requests away. -/
def disowned (k : Core) : Core := { k with cfg := { k.cfg with partcfg := 0 } }
def loadReq : MemReq := req (.load 8 .none) (.load 3 8 true false)
def waitReq : MemReq := req (.wait .eq 8 5) (.wait 3 7)
/-- A wait whose limit runs, and a replayed write. -/
def dueReq : MemReq := { waitReq with limit := some 0 }
def replayReq : MemReq := req (.post .st 8 5) (.reinj 0 0)
def asks (r : MemReq) (h : Core → Core) : State := sent (two id h id) D C false (.request refD r)
def got1 (s : State) : State := s.receive 0 (first s)
/-- What the first message's home answers to request r. -/
def serves (s : State) (r : MemReq) : Bool :=
  ((got1 s).serve C r ((got1 s).replayWriter refD r)).isSome
def waits (n : Nat) (k : Core) : Core := { k with waiters := List.replicate n (Waiter.mk refD waitReq false 0 none) }
theorem test_witness_RequestsAndReplies_requests :
    Arrives (asks loadReq id) 0 (first (asks loadReq id)) (.request refD loadReq) ∧
    Arrives (asks waitReq id) 0 (first (asks waitReq id)) (.request refD waitReq) ∧
    Arrives (asks loadReq disowned) 0 (first (asks loadReq disowned)) (.request refD loadReq) ∧
    Arrives (asks loadReq stopped) 0 (first (asks loadReq stopped)) (.request refD loadReq) ∧
    ((got1 (asks loadReq disowned)).turnedAway (first (asks loadReq disowned)) loadReq.pa = some 1 ∧
      (got1 (asks loadReq id)).turnedAway (first (asks loadReq id)) loadReq.pa = none ∧
      (got1 (asks loadReq stopped)).turnedAway (first (asks loadReq stopped)) loadReq.pa = none ∧
      ((asks loadReq id).core C).dbg.stop = false ∧ ((asks loadReq stopped).core C).dbg.stop = true ∧
      serves (asks loadReq id) loadReq = true ∧ serves (asks waitReq id) waitReq = false ∧
      (((asks waitReq (waits 64)).core C).waiters.filter (fun w => !w.isLocal)).length = 64 ∧
      serves (asks waitReq (waits 64)) waitReq = false ∧ loadReq.cont.isReplay = false ∧ replayReq.cont.isReplay = true ∧
      (got1 (asks loadReq id)).replayOf D loadReq = none ∧ (got1 (asks waitReq id)).replayOf D waitReq = none ∧
      waitReq.limit.isSome = false ∧ (got1 (asks dueReq id)).isDue (((got1 (asks dueReq id)).strandOf refD).bind (·.deadline)) = false) ∧
    (let s := asks dueReq id
     let t : State := s.putStrand D 3 { T0 with uid := 55, deadline := some 0 }
     Arrives t 0 (first t) (.request refD dueReq) ∧ dueReq.limit.isSome = true ∧
       (got1 t).isDue (((got1 t).strandOf refD).bind (·.deadline)) = true ∧ serves t dueReq = false) ∧
    (let s := sent (two id (fun k => { k with crews := [(2, crew7)] }) (fun k => { k with admitting := [{ coatL with st := { coatL.st with uid := 77 } }] }))
       D C false (.descReq 2 77)
     Arrives s 0 (first s) (.descReq 2 77) ∧ ((s.core (first s).src).admitting.find? (fun x => decide (x.st.uid = 77))).isSome = true) ∧
    (let s := sent (two id (fun k => { k with crews := [(2, { crew7 with mark := .double })],
                                              departures := [(5, Departure.mk coatL false 0 .double)] }) id) D C false (.annexReq 5 77)
     Arrives s 0 (first s) (.annexReq 5 77) ∧ List.lookup 5 (s.core C).departures = some (Departure.mk coatL false 0 .double) ∧
       coatL.st.lslot = some 2 ∧ List.lookup 2 (s.core C).crews = some { crew7 with mark := .double } ∧ crew7.mark ≠ .double) ∧
    (let s := sent (two (awaiting .mem loadReq) id id) D C true (.resend refC loadReq D 0 false)
     Arrives s 0 (first s) (.resend refC loadReq D 0 false) ∧ (got1 s).stillAsks refC loadReq = true ∧
       (got1 s).stillAsks refD loadReq = false) ∧
    (let s := sent (two id (waits 1) id) D C false (.withdraw refD 0)
     Arrives s 0 (first s) (.withdraw refD 0) ∧ (s.core (first s).dst).waiters = [Waiter.mk refD waitReq false 0 none] ∧
       waitReq.cont = .wait 3 7) :=
  ⟨arrives_of (by decide +kernel), arrives_of (by decide +kernel), arrives_of (by decide +kernel), arrives_of (by decide +kernel),
   by decide +kernel, ⟨arrives_of (by decide +kernel), by decide +kernel⟩, ⟨arrives_of (by decide +kernel), by decide +kernel⟩,
   ⟨arrives_of (by decide +kernel), by decide +kernel⟩,
   ⟨arrives_of (by decide +kernel), by decide +kernel⟩, ⟨arrives_of (by decide +kernel), by decide +kernel⟩⟩

def ldsRec : LdsRec := ⟨4, 0x5555, 3, 4, false, 0, 16⟩
def ldsReq : MemReq := req (.load 4 .none) (.lds 4 3)
def loading : Strand → Strand := nine (fun st => { st.setPend 3 .load with lds := [ldsRec] })
def replied (f : Strand → Strand) (b : Body) : State := sent (two f id id) D C true b
def Tn9 (f : Strand → Strand) : Strand := f T0
/-- A reply for the strand that awaits it. -/
def answered (r : MemReq) (a : Answer) : State := replied (awaiting .mem r) (.reply refC r a)
def value1 : Answer := .value 0x80000001 true none 0
def amoReq : MemReq := req (.amo .cas 4 0 0) (.amo 3 4 true)
theorem test_witness_RequestsAndReplies_replies :
    (let st : Strand := nine (fun st => { st with run := .blocked .msg, deadline := some 0 }) T0
     let s := two (fun _ => st) id id
     s.strandAt C 0 = some st ∧ st.deadline = some 0 ∧ 0 ≤ s.cycle ∧ (s.core C).dbg.stop = false) ∧
    (let st : Strand := nine (fun st => { st with run := .await .mem waitReq, deadline := some 0 }) T0
     let w : Waiter := Waiter.mk refC waitReq true 0 none
     let s := two (fun _ => st) (fun k => { k with waiters := [w] }) id
     s.strandAt C 0 = some st ∧ (s.core C).dbg.stop = false ∧ isHost waitReq.pa = false ∧ homeOf waitReq.pa = C ∧ st.stat.wtrap = false ∧
       (s.core C).waiters = [w] ∧ w.ref.uid = st.uid ∧ w.req = waitReq) ∧
    (let s := replied loading (.reply refC ldsReq value1)
     Arrives s 0 (first s) (.reply refC ldsReq value1) ∧ s.strandAt C 0 = some (loading T0) ∧
       (s.core C).strandsOf (fun x => decide (x.uid = 9)) = [loading T0] ∧ (loading T0).lds = [ldsRec] ∧
       (loading T0).pending 3 = .load ∧ lfMirror ldsReq.leaf = false) ∧
    (let s := replied loading (.reply refC ldsReq (.uncorrectable 0x100))
     Arrives s 0 (first s) (.reply refC ldsReq (.uncorrectable 0x100)) ∧ (s.core C).standing 9 = some (0, loading T0)) ∧
    (let s := answered loadReq value1
     let st := awaiting .mem loadReq T0
     Arrives s 0 (first s) (.reply refC loadReq value1) ∧ (got1 s).awaits refC st .mem loadReq ∧ st.trap = none ∧ st.stat.qbound = false ∧
       lfMirror loadReq.leaf = false) ∧
    (let s := answered amoReq value1
     Arrives s 0 (first s) (.reply refC amoReq value1) ∧ (got1 s).awaits refC (awaiting .mem amoReq T0) .mem amoReq) ∧
    (let s := answered waitReq value1
     Arrives s 0 (first s) (.reply refC waitReq value1) ∧ (got1 s).awaits refC (awaiting .mem waitReq T0) .mem waitReq) ∧
    (let s := answered loadReq .refused
     Arrives s 0 (first s) (.reply refC loadReq .refused) ∧ (got1 s).awaits refC (awaiting .mem loadReq T0) .mem loadReq) ∧
    (let r := req (.put [1, 2]) .block
     let s := answered r value1
     Arrives s 0 (first s) (.reply refC r value1) ∧ (got1 s).awaits refC (awaiting .mem r T0) .mem r) ∧
    (let r := req (.get 2) .block
     let s := answered r (.bytes [1, 2] 0)
     Arrives s 0 (first s) (.reply refC r (.bytes [1, 2] 0)) ∧ (got1 s).awaits refC (awaiting .mem r T0) .mem r) ∧
    (let s := answered replayReq value1
     Arrives s 0 (first s) (.reply refC replayReq value1) ∧ (got1 s).awaits refC (awaiting .mem replayReq T0) .mem replayReq) ∧
    (let r := waitFor (.launch 4)
     let s := replied (awaiting .msg r) (.enqueueReply refC 0x8000000000000123)
     Arrives s 0 (first s) (.enqueueReply refC 0x8000000000000123) ∧ (got1 s).awaits refC (awaiting .msg r T0) .msg r ∧
       hKind 0x8000000000000123 ≠ 3) :=
  ⟨by decide +kernel, by decide +kernel, ⟨arrives_of (by decide +kernel), by decide +kernel⟩,
   ⟨arrives_of (by decide +kernel), by decide +kernel⟩,
   ⟨arrives_of (by decide +kernel), by unfold State.awaits; decide +kernel, by decide +kernel⟩,
   ⟨arrives_of (by decide +kernel), by unfold State.awaits; decide +kernel⟩,
   ⟨arrives_of (by decide +kernel), by unfold State.awaits; decide +kernel⟩,
   ⟨arrives_of (by decide +kernel), by unfold State.awaits; decide +kernel⟩,
   ⟨arrives_of (by decide +kernel), by unfold State.awaits; decide +kernel⟩,
   ⟨arrives_of (by decide +kernel), by unfold State.awaits; decide +kernel⟩,
   ⟨arrives_of (by decide +kernel), by unfold State.awaits; decide +kernel⟩,
   ⟨arrives_of (by decide +kernel), by unfold State.awaits; decide +kernel, by decide +kernel⟩⟩

def postOf (op : PostOp) : Post := ⟨12, 0x4444, coreBase C + 0x20000104, 0x20000104, op, 0x1122334455667788, 4, false, 16⟩
def posted (op : PostOp) (h : Core → Core) : State := sent (two id h id) D C false (.post refD (postOf op) 0 0 false none)
def posting : Strand → Strand := nine (fun st => { st with posts := [postOf .st] })
def merge0 : Merge :=
  { line := (coreBase C + 0x20000100) / 64, op := .add, size := 4, vals := [(4, 7)], opened := 0, lastAt := 0, logged := false,
    expendable := true, leaf := 0, tags := [], strands := [], asid := 0, opener := none }
def onBoard (k : Cont) : State := replied (awaiting .msg (waitFor k)) (.boardReply refC k 3 12 0x99)
theorem test_witness_RequestsAndReplies_posts :
    (let s := posted .st id
     Arrives s 0 (first s) (.post refD (postOf .st) 0 0 false none) ∧ (got1 s).postWhy (first s) (postOf .st).pa = none ∧
       CalmHome s (first s).dst 0 false ∧ isHost (postOf .st).pa = false ∧ inControl (offOf (postOf .st).pa) = false ∧
       homeOf (postOf .st).pa = (first s).dst ∧ (postOf .st).size ∈ [1, 2, 4, 8]) ∧
    (let s := posted (.red .add) id
     Arrives s 0 (first s) (.post refD (postOf (.red .add)) 0 0 false none) ∧ (got1 s).postWhy (first s) (postOf .st).pa = none ∧
       CalmHome s (first s).dst 0 false ∧ RedOp.isFp .add = false ∧ RedOp.isFp .fadd = true ∧
       (decFp .f32 ((postOf (.red .fadd)).data.toNat % 2 ^ (8 * 4))).isNaN = false) ∧
    (let s := posted .st stopped
     Arrives s 0 (first s) (.post refD (postOf .st) 0 0 false none) ∧ (got1 s).postWhy (first s) (postOf .st).pa = some 1) ∧
    (let s : State := { two id (fun k => { k with merges := [merge0] }) id with cycle := 600 }
     Memory.wf s.mem = true ∧ (s.core C).merges = [merge0] ∧ merge0.lastAt + 512 ≤ s.cycle ∧ (s.core C).dbg.stop = false ∧ s.ecc = [] ∧
       (s.core C).waiters = [] ∧ merge0.logged = false ∧ lfMirror merge0.leaf = false) ∧
    (let s := replied posting (.postAck refC 12 none)
     Arrives s 0 (first s) (.postAck refC 12 none) ∧ (got1 s).strandAt C 0 = some (posting T0) ∧ (posting T0).uid = 9 ∧
       (posting T0).posts = [postOf .st] ∧ (postOf .st).id = 12 ∧ (posting T0).trap = none) ∧
    (let s := replied posting (.postNak refC 12 3)
     Arrives s 0 (first s) (.postNak refC 12 3) ∧ (got1 s).strandAt C 0 = some (posting T0)) ∧
    (let s := sent (two id id id) D C false (.boardQuery refD (mkHandle 0 0 0 5) (.fwait 4))
     Arrives s 0 (first s) (.boardQuery refD (mkHandle 0 0 0 5) (.fwait 4)) ∧ (s.core (first s).dst).dbg.stop = false) ∧
    (let s := onBoard (.source 4)
     Arrives s 0 (first s) (.boardReply refC (.source 4) 3 12 0x99) ∧
       (got1 s).awaits refC (awaiting .msg (waitFor (.source 4)) T0) .msg (waitFor (.source 4))) ∧
    (let s := onBoard (.fstatus 4 5)
     Arrives s 0 (first s) (.boardReply refC (.fstatus 4 5) 3 12 0x99) ∧
       (got1 s).awaits refC (awaiting .msg (waitFor (.fstatus 4 5)) T0) .msg (waitFor (.fstatus 4 5))) ∧
    (let s := onBoard (.lstat 4 5)
     Arrives s 0 (first s) (.boardReply refC (.lstat 4 5) 3 12 0x99) ∧
       (got1 s).awaits refC (awaiting .msg (waitFor (.lstat 4 5)) T0) .msg (waitFor (.lstat 4 5))) ∧
    (let s := sent (two id working id) D C false (.cancel (mkHandle 1 0 0 5))
     Arrives s 0 (first s) (.cancel (mkHandle 1 0 0 5)) ∧ (s.core (first s).dst).dbg.stop = false ∧
       (got1 s).record C (hSlot (mkHandle 1 0 0 5)) = some (rec0 (.matrix job0) .running) ∧
       (rec0 (.matrix job0) .running).seq = hSeq (mkHandle 1 0 0 5) ∧ hKind (mkHandle 1 0 0 5) = 1 ∧
       (rec0 (.matrix job0) .running).isCopy = false) ∧
    (let s := sent (two id id id) D C false (.mirrorUpdate 5 7 [(0x300, [1, 2, 3, 4])] [])
     Arrives s 0 (first s) (.mirrorUpdate 5 7 [(0x300, [1, 2, 3, 4])] []) ∧ Memory.wf s.mem = true ∧
       (s.core (first s).dst).dbg.stop = false ∧ (s.core (first s).dst).merges = []) :=
  ⟨⟨arrives_of (by decide +kernel), by decide +kernel, home_of (by decide +kernel), by decide +kernel⟩,
   ⟨arrives_of (by decide +kernel), by decide +kernel, home_of (by decide +kernel), by decide +kernel⟩,
   ⟨arrives_of (by decide +kernel), by decide +kernel⟩, by decide +kernel, ⟨arrives_of (by decide +kernel), by decide +kernel⟩,
   ⟨arrives_of (by decide +kernel), by decide +kernel⟩, ⟨arrives_of (by decide +kernel), by decide +kernel⟩,
   ⟨arrives_of (by decide +kernel), by unfold State.awaits; decide +kernel⟩,
   ⟨arrives_of (by decide +kernel), by unfold State.awaits; decide +kernel⟩,
   ⟨arrives_of (by decide +kernel), by unfold State.awaits; decide +kernel⟩,
   ⟨arrives_of (by decide +kernel), by decide +kernel⟩, ⟨arrives_of (by decide +kernel), by decide +kernel⟩⟩

/-! ### Rings, copies and matrix steps between the cores -/

def ring7 : Ring :=
  { asid := 3, mode := 0, sizem1 := 0, logent := 2, base := 0x400, head := 5, pub := 6, claim := 6, granted := 1, cbatch := 2, pword := 0,
    cword := 0, qout := false, qin := false, taskref := 0, waiters := [], ready := [] }
def atRing (r : Ring) (b : Body) : State := sent (two id (fun k => { k with rings := [(2, r)] }) id) D C false b
def bytes16 : List Byte := (List.range 16).map (fun i => BitVec.ofNat 8 (i + 1))
def credit7 : Credit := { ln := 1, ring := 4, valid := true, req := true, sizem1 := 0, credits := 0, asid := 0, resend := some 0, tag := none }
def withCredit (k : Core) : Core := { k with credits := [(6, credit7)] }
def appendBody (asid : Nat) : Body := .append refD 2 asid 7 bytes16
/-- The message arrives, the core is not stopped, and its router lets it in. -/
def taken (s : State) : Bool :=
  !(s.core (first s).dst).dbg.stop && ((got1 s).turnedAway (first s) (coreBase C)).isNone && decide ((first s).dst = C)
theorem test_witness_RingsAndCopiesBetweenCores_rings :
    (let s := atRing ring7 (appendBody 3)
     Arrives s 0 (first s) (appendBody 3) ∧ taken s = true ∧ s.ring C 2 = some ring7 ∧ ring7.open 3 = true ∧ ring7.claim = ring7.pub ∧
       ring7.pub < 65536 ∧ bytes16.length = ring7.size ∧ CalmHome s C 0 ((got1 s).writerOf refD 0).log) ∧
    (let s := atRing ring7 (appendBody 4)
     Arrives s 0 (first s) (appendBody 4) ∧ taken s = true ∧ ring7.open 4 = false) ∧
    (let s := sent (two id (fun k => disowned { k with rings := [(2, ring7)] }) id) D C false (appendBody 3)
     Arrives s 0 (first s) (appendBody 3) ∧ (s.core (first s).dst).dbg.stop = false ∧ s.ring (first s).dst 2 = some ring7 ∧
       ((got1 s).turnedAway (first s) (coreBase (first s).dst)).isSome = true ∧ ring7.mode = 0 ∧ ring7.ready = []) ∧
    (let r := waitFor (.rapp 7)
     let s := sent (two (awaiting .msg r) withCredit id) D C true (.appendReply refC 6 true false)
     Arrives s 0 (first s) (.appendReply refC 6 true false) ∧ (got1 s).awaits refC (awaiting .msg r T0) .msg r) ∧
    (let r := waitFor (.rapp 7)
     let s := sent (two (awaiting .msg r) withCredit id) D C true (.appendReply refC 6 false false)
     Arrives s 0 (first s) (.appendReply refC 6 false false) ∧ (got1 s).awaits refC (awaiting .msg r T0) .msg r ∧
       (got1 s).credit C 6 = some credit7) ∧
    (let r := waitFor (.rapp 7)
     let s := sent (two (awaiting .msg r) withCredit id) D C true (.appendReply refC 6 false true)
     Arrives s 0 (first s) (.appendReply refC 6 false true) ∧ (got1 s).awaits refC (awaiting .msg r T0) .msg r) ∧
    (let s := atRing ring7 (.creditReq 2 3 7)
     Arrives s 0 (first s) (.creditReq 2 3 7) ∧ taken s = true ∧ s.ring C 2 = some ring7 ∧ ring7.f = 2 ∧ ring7.cbatch = 2 ∧
       { ring7 with granted := 3 }.f = 0 ∧ { ring7 with granted := 3 }.open 3 = true ∧
       (List.replicate 8 (1, 1)).length = 8) ∧
    (let s := sent (two id withCredit id) D C true (.creditGrant 6 2 5 false)
     Arrives s 0 (first s) (.creditGrant 6 2 5 false) ∧ s.credit (first s).dst 6 = some credit7) ∧
    (let s := sent (two id withCredit id) D C true (.creditGrant 6 0 5 false)
     Arrives s 0 (first s) (.creditGrant 6 0 5 false) ∧ s.credit (first s).dst 6 = some credit7) ∧
    (let s := sent (two id withCredit id) D C true (.creditGrant 6 0 5 true)
     Arrives s 0 (first s) (.creditGrant 6 0 5 true) ∧ s.credit (first s).dst 6 = some credit7) ∧
    (let s := two id withCredit id
     s.credit C 6 = some credit7 ∧ credit7.resend = some 0 ∧ 0 ≤ s.cycle ∧ s.lnCore (s.partOf C) credit7.ln = some D) ∧
    (let s := atRing ring7 (.creditReturn (some refD) 2 3 7 1)
     Arrives s 0 (first s) (.creditReturn (some refD) 2 3 7 1) ∧ (s.core (first s).dst).dbg.stop = false ∧ s.ring (first s).dst 2 = some ring7) ∧
    (let s := atRing { ring7 with mode := 1 } (.steal refD 2 3)
     Arrives s 0 (first s) (.steal refD 2 3) ∧ taken s = true ∧ (s.core (first s).dst).merges = [] ∧
       s.ring C 2 = some { ring7 with mode := 1 } ∧ 1 ≤ { ring7 with mode := 1 }.p) ∧
    (let s := atRing ring7 (.steal refD 2 3)
     Arrives s 0 (first s) (.steal refD 2 3) ∧ taken s = true ∧ s.ring C 2 = some ring7 ∧ ring7.mode = 0) ∧
    (let r := waitFor (.rsteal 7 0x20000100)
     let s := replied (awaiting .msg r) (.stealReply refC none)
     Arrives s 0 (first s) (.stealReply refC none) ∧ (got1 s).awaits refC (awaiting .msg r T0) .msg r) ∧
    (let r := waitFor (.rsteal 7 0x200FFFF0)
     let s := replied (awaiting .msg r) (.stealReply refC (some bytes16))
     Arrives s 0 (first s) (.stealReply refC (some bytes16)) ∧ (got1 s).awaits refC (awaiting .msg r T0) .msg r ∧
       0x200FFFF0 % 16 = 0 ∧ bytes16.length = 16 ∧ CalmHome s C 0 (awaiting .msg r T0).stat.log) :=
  ⟨⟨arrives_of (by decide +kernel), by decide +kernel, by decide +kernel, by decide +kernel, by decide +kernel, by decide +kernel,
     by decide +kernel, home_of (by decide +kernel)⟩,
   ⟨arrives_of (by decide +kernel), by decide +kernel⟩, ⟨arrives_of (by decide +kernel), by decide +kernel⟩,
   ⟨arrives_of (by decide +kernel), by unfold State.awaits; decide +kernel⟩,
   ⟨arrives_of (by decide +kernel), by unfold State.awaits; decide +kernel, by decide +kernel⟩,
   ⟨arrives_of (by decide +kernel), by unfold State.awaits; decide +kernel⟩, ⟨arrives_of (by decide +kernel), by decide +kernel⟩,
   ⟨arrives_of (by decide +kernel), by decide +kernel⟩, ⟨arrives_of (by decide +kernel), by decide +kernel⟩,
   ⟨arrives_of (by decide +kernel), by decide +kernel⟩, by decide +kernel, ⟨arrives_of (by decide +kernel), by decide +kernel⟩,
   ⟨arrives_of (by decide +kernel), by decide +kernel⟩, ⟨arrives_of (by decide +kernel), by decide +kernel⟩,
   ⟨arrives_of (by decide +kernel), by unfold State.awaits; decide +kernel⟩,
   ⟨arrives_of (by decide +kernel), by unfold State.awaits; decide +kernel, by decide +kernel, by decide +kernel, home_of (by decide +kernel)⟩⟩

def copy7 : CopyJob := { copy0 with src := 0x10100, dst := 0x10238, bcben := true, bcb := 3, len := 100, landed := 10, sent := 30, started := true }
def recCopy (j : CopyJob) (st : RecState) : Record := { rec0 (.copy j) st with lslot := none, cancel := false, deps := [], held := false }
/-- Core C with operation 4, its place on the board, and a message. -/
def working4 (r : Record) (k : Core) : Core := { k with records := [(4, r)], board := [(4, ⟨r.seq, true, []⟩)] }
def withRec (r : Record) : State := two id (working4 r) id
def toRec (r : Record) (b : Body) : State := sent (withRec r) D C true b
def chunkPa : Nat := coreBase C + 0x20000100
def chunkBody : Body := .chunk 4 D chunkPa bytes16 3 false (some 2) false 0
def chunked (h : Core → Core) : State := sent (two id (fun k => h { k with bcbs := [(2, ⟨5, 3⟩)] }) id) D C false chunkBody
def idleCopy : CopyJob := { copy7 with sent := 10 }
def chunkRead : UnitRead := State.unitRead 4 (withRec (recCopy idleCopy .running)) C (recCopy idleCopy .running) (formOf idleCopy.sform) idleCopy.src idleCopy.sent
  (min (idleCopy.len - idleCopy.sent) (64 - (idleCopy.dst.toNat + idleCopy.sent) % 64))
def readOk : UnitRead → Bool | .ok _ _ => true | _ => false
def readState (s : State) : UnitRead → State | .ok _ t => t | _ => s
def chunkTo : Tr := (readState S0 chunkRead).unitResolve C (recCopy idleCopy .running) (formOf idleCopy.dform) idleCopy.dst idleCopy.sent kWrite
theorem test_witness_RingsAndCopiesBetweenCores_copies :
    (let s := chunked id
     Arrives s 0 (first s) chunkBody ∧ (got1 s).turnedAway (first s) chunkPa = none ∧ (got1 s).chunkHeld (first s) = false ∧
       inControl (offOf chunkPa) = false ∧ homeOf chunkPa = (first s).dst ∧ CalmHome s (first s).dst 0 false ∧
       List.lookup 2 (s.core (first s).dst).bcbs = some ⟨5, 3⟩ ∧ (3 : Nat) = (Bcb.mk 5 3).asid) ∧
    (let s := chunked disowned
     Arrives s 0 (first s) chunkBody ∧ (got1 s).turnedAway (first s) chunkPa = some 1) ∧
    (let s := chunked stopped
     Arrives s 0 (first s) chunkBody ∧ (got1 s).turnedAway (first s) chunkPa = none ∧ (got1 s).chunkHeld (first s) = true) ∧
    (let r := recCopy copy7 .running
     (toRec r (.chunkAck 4 20)).record C 4 = some r ∧ r.cancel = false ∧ r.job = .copy copy7 ∧ r.state = .running ∧
       Arrives (toRec r (.chunkAck 4 20)) 0 (first (toRec r (.chunkAck 4 20))) (.chunkAck 4 20) ∧
       Arrives (toRec r (.chunkNak 4 none)) 0 (first (toRec r (.chunkNak 4 none))) (.chunkNak 4 none) ∧
       Arrives (toRec r (.chunkNak 4 (some 99))) 0 (first (toRec r (.chunkNak 4 (some 99)))) (.chunkNak 4 (some 99))) ∧
    (let r := recCopy copy7 .pending
     let s := toRec r (.resumeNotice 4)
     Arrives s 0 (first s) (.resumeNotice 4) ∧ s.record C 4 = some r ∧ r.state = .pending ∧
       (s.core C).copiesRunning < (s.core C).channels ∧ (first s).dst = C ∧ s.unitHeld C r = false ∧ copy7.resume ≤ s.cycle) ∧
    (let r := recCopy idleCopy .running
     let s := withRec r
     s.record C 4 = some r ∧ s.unitHeld C r = false ∧ idleCopy.sent = idleCopy.landed ∧ idleCopy.landed < idleCopy.len ∧
       r.cancel = false ∧ { r with cancel := true }.cancel = true ∧ readOk chunkRead = true ∧
       (match chunkTo with | .ok pa _ _ => !isHost pa && (homeOf pa).w == C.w | _ => false) = true ∧
       (withRec { r with cancel := true }).unitHeld C { r with cancel := true } = false) ∧
    (let j : CopyJob := { idleCopy with landed := 100, sent := 100 }
     let r := recCopy j .running
     let s := withRec r
     s.record C 4 = some r ∧ s.unitHeld C r = false ∧ j.sent = j.landed ∧ j.len ≤ j.landed ∧ j.pub = false) ∧
    (let r : Record := { recCopy copy7 .waitdep with deps := [mkHandle 1 0 4 8] }
     let s := fun (e : EndState) => two id (fun k => { working4 r k with board := [(4, ⟨9, true, [(8, e, 0)]⟩)] }) id
     (s .done).record C 4 = some r ∧ r.state = .waitdep ∧ (s .done).deps ((s .done).partOf C) r.deps = .met ∧
       (s .cancelled).deps ((s .cancelled).partOf C) r.deps = .failed) ∧
    (let r := recCopy idleCopy .eligible
     (withRec r).record C 4 = some r ∧ (withRec r).unitHeld C r = false ∧ (withRec r).firstInOrder C 4 r = true ∧
       ((withRec r).core C).copiesRunning < ((withRec r).core C).channels) ∧
    (let f : Nat → Core → Core := fun v k => { k with cfg := { k.cfg with mask := v, proxy := 0x10000 } }
     let s := fun (a b : Nat) => sent (two id (f a) (f b)) D C false (.proxyQuery refD 1 2)
     Arrives (s 0x1F 1) 0 (first (s 0x1F 1)) (.proxyQuery refD 1 2) ∧ ((s 0x1F 1).core C).dbg.stop = false ∧
       ((s 0x1F 1).core C).has 2 = true ∧ ((s 1 0x1F).core C).has 2 = false ∧ ((s 1 0x1F).nextProxy C 2 1).isSome = true ∧
       ((s 1 1).core C).has 2 = false ∧ ((s 1 1).nextProxy C 2 3).isNone = true) :=
  ⟨⟨arrives_of (by decide +kernel), by decide +kernel, by decide +kernel, by decide +kernel, by decide +kernel, home_of (by decide +kernel),
     by decide +kernel⟩,
   ⟨arrives_of (by decide +kernel), by decide +kernel⟩, ⟨arrives_of (by decide +kernel), by decide +kernel⟩,
   ⟨by decide +kernel, by decide +kernel, by decide +kernel, by decide +kernel, arrives_of (by decide +kernel), arrives_of (by decide +kernel),
     arrives_of (by decide +kernel)⟩,
   ⟨arrives_of (by decide +kernel), by decide +kernel⟩, by decide +kernel, by decide +kernel, by decide +kernel, by decide +kernel,
   ⟨arrives_of (by decide +kernel), by decide +kernel⟩⟩

/-- Ring elements of 128 bytes at rings 1 and 2, and a result ring 3. -/
def ringG : Ring := { ring7 with asid := 0, sizem1 := 7, granted := 0, taskref := 1 }
def jobWord (score cls : Nat) : Word :=
  wd (score * 2 ^ 61 + cls * 2 ^ 52 + 3 * 2 ^ 46 + 3 * 2 ^ 40 + 1 * 2 ^ 35 + 2 * 2 ^ 30 + 1 * 2 ^ 26 + 2 * 2 ^ 22 + 3 * 2 ^ 18 + 40)
def jobOf (score cls : Nat) : MatrixJob :=
  { job0 with words := (Vector.replicate 16 0).set 0 (jobWord score cls) |>.set 5 (wd (64 * 2 ^ 32 + 0x8000)) |>.set 8 0x10100
                |>.set 9 (wd (0x7F * 2 ^ 53 + 63 * 2 ^ 40 + 0x200 * 2 ^ 20 + 0x1000)) |>.set 10 5,
              theta := thetaNone, published := 0, abandoned := 0 }
def recJob (m : MatrixJob) (st : RecState) : Record := recCopy copy7 st |> fun r => { r with job := .matrix m }
def rings3 (k : Core) : Core :=
  { k with rings := [(1, ringG), (2, { ringG with base := 0x4000 }), (3, { ringG with base := 0x8000, sizem1 := 0, pub := 5, claim := 5 })] }
def matrixed (m : MatrixJob) (st : RecState) : State := two id (fun k => rings3 (working4 (recJob m st) k)) id
def paBytes : PaRead → List Byte | .ok b _ => b | .fault _ _ => []
def paState : PaRead → State | .ok _ s => s | .fault _ s => s
def paOk : PaRead → Bool | .ok _ _ => true | .fault _ _ => false
def frameA : PaRead := (matrixed (jobOf 0 0) .running).readPa (coreBase C + ringG.at 5) (2 * frameBytes 3) 0 true
def frameB : PaRead := (paState frameA).readPa (coreBase C + { ringG with base := 0x4000 }.at 5) (3 * frameBytes 3) 0 true
def lane0 : Lane :=
  { va := 0x10400, id := 77, uflags := 3, nblk := 2, tags := [0x81000000, 0x80000001], j := 1, s := 0xC0000000, verdict := true,
    noverdict := false, nanin := false, badid := false }
def jobLane (l : List (Nat × Lane)) : MatrixJob :=
  let m : MatrixJob := { jobOf 1 1 with fmta := 5 + 32, fmtb := 5 + 32, lanes := l }
  { m with qscales := List.replicate m.qblocks 127 }
/-- An entry of ring 1 that names a candidate at 0x10400, with two blocks. -/
def candidates : State :=
  let s := matrixed (jobLane []) .running
  { s with mem := memWrite (memWrite s.mem (coreBase C + ringG.at 5) (leBytes 8 0x10400)) 0x10400 (leBytes 8 99 ++ leBytes 8 2 ++ leBytes 8 7) }
/-- The reads of a candidate: its entry, its header and its tags. -/
def takes (s : State) (r : Record) (m : MatrixJob) : Bool :=
  match s.readPa (coreBase C + ringG.at 5) 8 0 true with
  | .fault _ _ => false
  | .ok b s1 =>
    let va := dwAt b 0
    match s1.linesHere C r va 0 1 with
    | .here s2 =>
      (match State.unitRead 2 s2 C r .va va 0 64 with
       | .ok h s3 =>
         let nblk := (dwAt h 8).toNat % 2 ^ 16
         (match s3.linesHere C r va 1 (tagLines nblk + (nblk * m.bb + 63) / 64) with
          | .here s4 => readOk (State.unitRead (nblk / 16 + 3) s4 C r .va va 64 (4 * nblk))
          | _ => false)
       | _ => false)
    | _ => false
def scores (l : Lane) : State := matrixed (jobLane [(3, l)]) .running
/-- The reads of a lane's block. -/
def lineOf (s : State) (r : Record) (m : MatrixJob) (l : Lane) : LineRead := s.lineRead C r l.va (64 + 64 * tagLines l.nblk + l.j * m.bb) m.bb
def blockReads (s : State) (r : Record) (m : MatrixJob) (l : Lane) : Bool :=
  match lineOf s r m l with
  | .ok _ s1 => paOk (s1.padRead C (m.qaddr + l.tags.getD l.j 0 % 2 ^ 16 * fmtBlen m.fmta / 32 * frameBytes m.fmta) (frameBytes m.fmta))
  | _ => false
/-- The lane's candidate stands at core D. -/
def farLane : Lane := { lane0 with va := 0x4000000, verdict := false }
def farScores : State :=
  (scores farLane).modCore C (fun k => { k with coreTlb := k.coreTlb ++ [{ fetchTlb with shift := 26, vpn := 1, leaf := wd (coreBase D + 0x2BF) }] })
def gives (m : MatrixJob) (l : Lane) : Bool :=
  abandons m.cls l.s (((l.tags.drop l.j).map (fun t => m.covers (t % 2 ^ 16))).sum)
    (((l.tags.getD l.j 0 / 2 ^ 24 : Nat) : Int) - 127 + ((m.qmax : Int) - 127) + maxposLog m.fmta + maxposLog m.fmtb) (l.nblk - l.j) m.theta
theorem test_witness_MatrixStepsAndBarrierPhases_steps :
    (let m : MatrixJob := { jobOf 0 0 with acc := [] }
     let r := recJob m .eligible
     let s := matrixed m .eligible
     s.record C 4 = some r ∧ s.unitHeld C r = false ∧ s.firstInOrder C 4 r = true ∧ (s.core C).unitFree r = true ∧ m.prog = none ∧
       m.isScore = false ∧ m.init = false) ∧
    (let m := jobOf 0 0
     let r := recJob m .running
     let s := matrixed m .running
     let qb : Ring := { ringG with base := 0x4000 }
     s.record C 4 = some r ∧ s.unitHeld C r = false ∧ m.isScore = false ∧ m.step < m.steps ∧ m.ringA ≠ m.ringB ∧ s.ring C m.ringA = some ringG ∧
       s.ring C m.ringB = some qb ∧ 1 ≤ ringG.p ∧ 1 ≤ qb.p ∧ ringG.mode = 0 ∧ ringG.waiters = [] ∧ fmtScaled m.fmta = false ∧ fmtScaled m.fmtb = false ∧ m.rows = 1 ∧
       m.cols = 2 ∧ m.fmta = 3 ∧ m.fmtb = 3 ∧ paOk frameA = true ∧ paOk frameB = true ∧ (paState frameB).ring C m.ringA = some ringG ∧
       (paState frameB).ring C m.ringB = some qb ∧
       (let k := min 32 (m.kn - 32 * m.step)
        let ba := paBytes frameA
        let bb := paBytes frameB
        anyVN 3 ((List.range 2).map (fun x => frameElems 3 ((ba.drop (x * frameBytes 3)).take (frameBytes 3)) k)) = none ∧
          anyVN 3 ((List.range 3).map (fun x => frameElems 3 ((bb.drop (x * frameBytes 3)).take (frameBytes 3)) k)) = none)) ∧
    (let m : MatrixJob := { jobOf 1 1 with published := 5 }
     (matrixed m .running).record C 4 = some (recJob m .running) ∧ (matrixed m .running).unitHeld C (recJob m .running) = false ∧
       m.isScore = true ∧ m.ncand ≤ m.published) ∧
    (let m : MatrixJob := { jobOf 0 0 with step := 2 }
     (matrixed m .running).record C 4 = some (recJob m .running) ∧ m.isScore = false ∧ m.steps ≤ m.step ∧ m.toc = false) ∧
    (let m : MatrixJob := { jobOf 1 2 with refresh := true }
     (matrixed m .running).record C 4 = some (recJob m .running) ∧ m.usesTheta = true ∧
       readOk ((matrixed m .running).readTheta C (recJob m .running) m) = true) ∧
    (let m := jobLane []
     let r := recJob m .running
     let s := candidates
     (s.core C).runningTask = some (4, r, m) ∧ m.isScore = true ∧ s.unitHeld C r = false ∧ m.taken < m.ncand ∧ (List.lookup 3 m.lanes).isNone = true ∧ s.ring C m.ringA = some ringG ∧
       s.ring C m.ringC = some { ringG with base := 0x8000, sizem1 := 0, pub := 5, claim := 5 } ∧ 1 ≤ ringG.p ∧
       m.lanes.length + 1 ≤ { ringG with base := 0x8000, sizem1 := 0, pub := 5, claim := 5 }.f ∧ takes s r m = true) ∧
    (let l : Lane := { lane0 with j := 2 }
     let m := jobLane [(3, l)]
     (scores l |>.core C).runningTask = some (4, recJob m .running, m) ∧ m.isScore = true ∧ List.lookup 3 m.lanes = some l ∧ l.nblk ≤ l.j ∧ (scores l).unitHeld C (recJob m .running) = false) ∧
    (let l : Lane := { lane0 with s := 0xF0000000, tags := [0x70000000, 0x60000001] }
     let m : MatrixJob := { jobLane [(3, l)] with theta := 0x3F800000 }
     let s := matrixed m .running
     (s.core C).runningTask = some (4, recJob m .running, m) ∧ List.lookup 3 m.lanes = some l ∧ l.j < l.nblk ∧ l.tags.length = l.nblk ∧
       m.qscales.length = m.qblocks ∧ l.verdict = true ∧ gives m l = true) ∧
    (let l : Lane := { lane0 with verdict := false }
     let m := jobLane [(3, l)]
     (scores l |>.core C).runningTask = some (4, recJob m .running, m) ∧ List.lookup 3 m.lanes = some l ∧ l.j < l.nblk ∧
       l.tags.length = l.nblk ∧ m.qscales.length = m.qblocks ∧ blockReads (scores l) (recJob m .running) m l = true) ∧
    (let m := jobLane [(3, farLane)]
     (farScores.core C).runningTask = some (4, recJob m .running, m) ∧ farLane.j < farLane.nblk ∧ farLane.verdict = false ∧
       (match lineOf farScores (recJob m .running) m farLane with | .away _ => true | _ => false) = true) :=
  ⟨by decide +kernel, by decide +kernel, by decide +kernel, by decide +kernel, by decide +kernel, by decide +kernel, by decide +kernel,
   by decide +kernel, by decide +kernel, by decide +kernel⟩

/-- A crew of two in launch slot 2 at core C, and a message. -/
def crew2 : Crew := { crew7 with size := 2, phase := 3 }
def crewAt (x : Crew) (b : Body) : State := sent (two id (fun k => { k with crews := [(1, x)] }) id) D C false b
/-- A running gang at core C, whose channel 12 is posted, two periods later. -/
def posted12 : Channel := { Channel.fresh 2 12 with arrived := 1, vals := [(0, 99, 5)], posted := some 0 }
def gangRun : Launch := { running0 with words := (words0 1 0).set 1 (wd (2 ^ 24)), slot := some 2, gangs := [gang0] }
def gangState : State :=
  (launched gangRun (two id (fun k => { k with crews := [(2, { crew2 with size := 1 })], chans := [posted12] }) id)).modPart 0
    (fun x => { x with period := 2 })
def phase0 : EvPhase := ⟨0, 2, 0, 12⟩
def fabricOn (k : Core) : Core := { k with cfg := { k.cfg with fabcfg := wd (2 ^ 15) } }
def partial0 (p : Nat) : Body := .fabPartial p 12 [(0, 5), (1, 6)] 0
def fabricAt (p : Nat) : State := sent (two id fabricOn id) C C false (partial0 p)
theorem test_witness_MatrixStepsAndBarrierPhases_phases :
    (let s := crewAt crew2 (.crewArrive 1 0 refD)
     Arrives s 0 (first s) (.crewArrive 1 0 refD) ∧ List.lookup 1 (s.core (first s).dst).crews = some crew2 ∧ crew2.mark = .clean ∧
       maskHas crew2.pendrel 0 = false ∧ coversAll 2 ((crew2.arrived ||| 2 ^ 0) ||| crew2.exited) = false) ∧
    (let x : Crew := { crew2 with exited := 2, pendrel := 2 }
     let s := crewAt x (.crewArrive 1 0 refD)
     Arrives s 0 (first s) (.crewArrive 1 0 refD) ∧ List.lookup 1 (s.core (first s).dst).crews = some x ∧ x.mark = .clean ∧ maskHas x.pendrel 0 = false ∧
       coversAll 2 ((x.arrived ||| 2 ^ 0) ||| x.exited) = true ∧ x.arrived = 0) ∧
    (let r := waitFor (.barc 5)
     let s := replied (awaiting .msg r) (.crewDone refC 1 4 77 true)
     Arrives s 0 (first s) (.crewDone refC 1 4 77 true) ∧ (got1 s).awaits refC (awaiting .msg r T0) .msg r) ∧
    (let x : Crew := { crew2 with pendrel := 6 }
     let s := crewAt x (.crewDoneAck 1 2)
     Arrives s 0 (first s) (.crewDoneAck 1 2) ∧ List.lookup 1 (s.core (first s).dst).crews = some x ∧ x.mark = .clean ∧ maskHas x.pendrel 2 = true) ∧
    (let s := crewAt crew2 (.crewExit 1 1)
     Arrives s 0 (first s) (.crewExit 1 1) ∧ List.lookup 1 (s.core (first s).dst).crews = some crew2 ∧ crew2.mark = .clean ∧ crew2.arrived = 0 ∧
       (s.core (first s).dst).chans = []) ∧
    (let s := crewAt { crew2 with exited := 2 } (.gangArrive 1 12 0 99 5)
     Arrives s 0 (first s) (.gangArrive 1 12 0 99 5) ∧ List.lookup 1 (s.core (first s).dst).crews = some { crew2 with exited := 2 } ∧
       crew2.removed = false ∧ (s.core (first s).dst).isFabric 12 = false ∧ ((s.core (first s).dst).chanOf 1 12).posted = none ∧
       coversAll 2 (1 ||| 2) = true ∧ coversAll 2 (1 ||| 0) = false ∧ (s.part (s.partOf (first s).dst)).isSome = true) ∧
    (let s := gangState
     (s.part 0).map (fun x => (x.period, (x.slotLaunch 2).isSome)) = some (2, true) ∧ s.gangCrews 0 gangRun gang0 = [(C, C)] ∧
       (s.part 0).bind (fun x => x.slotLaunch 2) = some gangRun ∧ gangRun.gangs.find? (fun z => decide (z.no = 0)) = some gang0 ∧
       (s.core C).chan? 2 12 = some posted12 ∧ s.phaseReady 0 2 gangRun gang0 12 = true ∧ posted12.posted = some 0 ∧
       s.headCore 0 = some C ∧ (s.core C).isFabric 12 = false) ∧
    (let s := fabricAt 0
     Arrives s 0 (first s) (partial0 0) ∧ s.groupParts (waferOfPart (s.partOf (first s).dst)) = [0] ∧
       s.pkg.fabPhases.find? (fun f => f.part = s.partOf (first s).dst && decide (f.chan = 12)) = none ∧ s.headCore 0 = some C) ∧
    (let s := fabricAt 1
     Arrives s 0 (first s) (partial0 1) ∧ s.groupParts (waferOfPart (s.partOf (first s).dst)) = [0] ∧ (0 : Nat) ≠ 1 ∧
       s.pkg.fabPhases.find? (fun f => f.part = s.partOf (first s).dst && decide (f.chan = 12)) = none) ∧
    (let s := sent (two id id id) D C true (.fabResult 12 5 true Flags.none)
     Arrives s 0 (first s) (.fabResult 12 5 true Flags.none) ∧ (s.part (s.partOf (first s).dst)).isSome = true) :=
  ⟨⟨arrives_of (by decide +kernel), by decide +kernel⟩, ⟨arrives_of (by decide +kernel), by decide +kernel⟩,
   ⟨arrives_of (by decide +kernel), by unfold State.awaits; decide +kernel⟩, ⟨arrives_of (by decide +kernel), by decide +kernel⟩,
   ⟨arrives_of (by decide +kernel), by decide +kernel⟩, ⟨arrives_of (by decide +kernel), by decide +kernel⟩, by decide +kernel,
   ⟨arrives_of (by decide +kernel), by decide +kernel⟩, ⟨arrives_of (by decide +kernel), by decide +kernel⟩,
   ⟨arrives_of (by decide +kernel), by decide +kernel⟩⟩

/-! ### Launches and gangs -/

/-- The launch at home core D, with a crew of two cores' rows and its completion record at 0x10440 when `done` says so. -/
def dispatch (ls : List Launch) (f : Partition → Partition) : State :=
  (two id id id).modPart 0 (fun x => f { x with contexts := [context0], launches := ls, launchNo := 5 })
def words8 (count : Nat) (done : Word) : Vector Word 8 := words0 count done
def placing0 : Launch := { launch0 with slot := some 2, state := .placing }
def gang1 : Gang := ⟨0, 0, 0, false, false, false, 0, []⟩
def placed1 (g : Gang) : Launch := { placing0 with state := .running, gangs := [g], nextGang := 1 }
/-- A strand of the gang at core D. -/
def member (run : Run) : Strand := { Strand.fresh with uid := 50, asid := 3, lslot := some 2, cln := 1, run := run }
def withMember (s : State) (run : Run) : State := s.modCore D (fun k => { k with slots := [(5, member run)] })
def partOf0 (s : State) : Partition := (s.part 0).getD (fetchPart none)
theorem placed_of {s : State} {x : Partition} {n sl : Nat} {l : Launch} (h : s.part 0 = some x ∧ x.launch n = some l ∧ l.slot = some sl) :
    s.placed 0 x n l sl := by unfold State.placed; simp_all
/-- Core D with leaves of 64 MiB for the save pools of two contexts. -/
def pooled (k : Core) : Core :=
  { k with coreTlb := [3, 7].map (fun a => { fetchTlb with asid := a, shift := 26, vpn := 1, leaf := wd (0x4000000 + 0x2BF) }) }
def poolCtx : Context := { context0 with save := 0x4000000 }
/-- A launch that finds no room at core D, whose strands belong to a gang of a lower level. -/
def hi : Launch := { placing0 with level := 3 }
def low : Launch := { placed1 { gang1 with started := true } with order := 3, slot := some 1, level := 0, asid := 7 }
def crowded : State :=
  (dispatch [low, hi] (fun x => { x with contexts := [poolCtx, { poolCtx with asid := 7 }] })).modCore D (fun k =>
    { pooled k with slots := (List.range 32).map (fun i => (i, { member .ready with asid := 7, lslot := some 1, uid := 100 + i })) })
theorem test_witness_LaunchesAndGangs_queue :
    (let b : Body := .enqueue (some refD) 3 (words8 1 0) 0
     let s := sent (dispatch [] id) D C false b
     Arrives s 0 (first s) b ∧ (s.part (s.partOf (first s).dst)).isSome = true ∧ (got1 s).recRefused 0 3 (words8 1 0) = none ∧
       s.context 0 3 = some context0 ∧ s.lnCore 0 context0.home = some D ∧ (partOf0 s).tearing.contains 3 = false ∧
       (let s := s.modPart 0 (fun x => { x with tearing := [3] })
        (got1 s).recRefused 0 3 (words8 1 0) = none ∧ s.context 0 3 = some context0 ∧ (partOf0 s).tearing.contains 3 = true)) ∧
    (let b : Body := .enqueue (some refD) 3 (words8 0 3) 0
     let s := sent (dispatch [] id) D C false b
     Arrives s 0 (first s) b ∧ ((got1 s).recRefused 0 3 (words8 0 3)).isSome = true) ∧
    (let l : Launch := { launch0 with state := .waitdep }
     let s := dispatch [l] id
     s.part 0 = some (partOf0 s) ∧ (partOf0 s).launch 4 = some l ∧ l.state = .waitdep ∧ s.deps 0 (recDeps l.words) = .met) ∧
    (let l := launch0
     let s : State := { dispatch [l] id with cycle := 200 }
     s.part 0 = some (partOf0 s) ∧ (partOf0 s).launch 4 = some l ∧ s.context 0 l.asid = some context0 ∧ l.inQueue = true ∧
       context0.age ≠ 0 ∧ l.level < 7 ∧ context0.age ≤ (s.cycle - l.entered) * 10 / 36 ∧ (partOf0 s).head = some l ∧ l.order = 4 ∧
       (partOf0 s).shut = false ∧ l.slot = none ∧ (partOf0 s).slotLaunch 0 = none) ∧
    (let l := placing0
     let s := dispatch [l] id
     (partOf0 s).head = some l ∧ l.order = 4 ∧ (partOf0 s).shut = false ∧ l.saved = [] ∧ l.nextNo = some 0 ∧
       s.context 0 l.asid = some context0 ∧ (s.rectFor 0 l 2).isSome = true ∧ s.lnCore 0 context0.home = some D ∧
       s.wantsSeam 0 l = none) ∧
    (let s := crowded
     (partOf0 s).head = some hi ∧ hi.order = 4 ∧ (partOf0 s).shut = false ∧ (∀ y ∈ (partOf0 s).launches, ∀ g ∈ y.gangs, g.stopping = false) ∧
       s.context 0 hi.asid = some poolCtx ∧ poolCtx.preempt / 2 ^ hi.level % 2 = 1 ∧ s.rectFor 0 hi 2 = none ∧
       (chooseVictims 0 hi 2 s (partOf0 s) ((partOf0 s).victims hi.level)).isSome = true) :=
  ⟨⟨arrives_of (by decide +kernel), by decide +kernel⟩, ⟨arrives_of (by decide +kernel), by decide +kernel⟩, by decide +kernel,
   by decide +kernel, by decide +kernel, by decide +kernel⟩

def home (k : Core) : Core := { pooled k with slots := [(5, member .ready)] }
/-- A gang whose strand is stopped, with a save pool. -/
def stopGang : Gang := { gang1 with y0 := 1, started := true, stopping := true }
def stopLaunch : Launch := { placed1 stopGang with
    words := (words0 1 0).set 1 (wd (2 ^ 63 + 2 ^ 24 + 2 * 2 ^ 16 + 2 * 2 ^ 8)) }
def stopState (run : Run) : State :=
  (dispatch [stopLaunch] (fun x => { x with contexts := [poolCtx] })).modCore D (fun k => { home k with slots := [(5, member run)] })
def saves (s : State) : Option State :=
  let l := stopLaunch
  ((partOf0 s).poolTake poolCtx l.gangSize).bind (fun vas =>
    match s.saveCores (partOf0 s) poolCtx D 2 (s.gangLns 0 l stopGang) (l.gangCores 0 stopGang) (l.gangCores 0 stopGang) vas with
    | .ok t => some t
    | _ => none)
def fault0 : FaultRec := ⟨0, 0, 3, 100, 4, 1, 0, 0, 0, 0⟩
def doneWords : Vector Word 8 := words8 1 0x10440
def completing0 : Launch := { placed1 gang1 with gangs := [], state := .completing, words := doneWords }
def doneState : State :=
  (dispatch [completing0] id).modCore D (fun k => { k with coreTlb := [{ fetchTlb with asid := 3, leaf := sampleLeaf }] })
def doneTo : Tr := doneState.resolve { homeCtx D 3 with priv := false } Strand.fresh .va (recDone doneWords) 0 kWrite 0
set_option maxRecDepth 100000 in
def map0 (pos : Nat) (sent : Option Nat) : MapJob := ⟨[D, C], 0x10000, pos, sent, none⟩
def failing0 : Launch := { launch0 with state := .waitdep, words := doneWords.set 2 5 }
def failState : State :=
  (dispatch [failing0] id).modCore D (fun k => { k with coreTlb := [{ fetchTlb with asid := 3, leaf := sampleLeaf }] })
/-- What both ends of a launch need of the state besides the launch's own state. -/
def endsAt (s : State) (l : Launch) : Bool :=
  decide ((partOf0 s).launch 4 = some l ∧ s.context 0 l.asid = some context0 ∧ s.lnCore 0 l.home = some D ∧ bitAt (s.core D).dbg.trcctl 63 = false ∧
    s.updatesDone 0 = true ∧ (s.cores.all (fun e => e.2.merges.isEmpty)) = true)
def saved0 : SavedGang := ⟨1, true, [], 0, 0, [], []⟩
theorem test_witness_LaunchesAndGangs_gangs :
    (let s := withMember (dispatch [placed1 gang1] id) (.stopped none)
     s.placed 0 (partOf0 s) 4 (placed1 gang1) 2 ∧
       ((placed1 gang1).gangs.find? (fun y => decide (y.no = 0)) = some gang1 ∧ gang1.started = false ∧ gang1.stopping = false ∧
         (placed1 gang1).startSeam = false ∧ (placed1 gang1).stopping = false ∧ (partOf0 s).newMap = none ∧
         s.ctxFrozen 0 3 = false ∧ D ∈ (partOf0 s).live ∧
         s.strandAt D 5 = some (member (.stopped none)) ∧
         ofGang 3 2 (s.gangLns 0 (placed1 gang1) gang1) (member (.stopped none)) = true)) ∧
    (let s := stopState .ready
     let st := member .ready
     s.placed 0 (partOf0 s) 4 (stopLaunch) 2 ∧
       ((stopLaunch).gangs.find? (fun y => decide (y.no = 0)) = some stopGang ∧ s.strandAt D 5 = some st ∧
         ((s.core D).slots.map (·.1)).Nodup ∧ ofGang 3 2 (s.gangLns 0 (stopLaunch) stopGang) st = true ∧ stopGang.stopping = true ∧ st.run = .ready ∧ st.trap = none ∧ st.midBulk = false ∧
         st.hold = none ∧ st.drained = true ∧ (s.core D).vectorOpen st.uid = false)) ∧
    (let s := stopState (.stopped none)
     s.placed 0 (partOf0 s) 4 (stopLaunch) 2 ∧ stopLaunch.stopping = false ∧ s.gangStill (partOf0 s) 0 (stopLaunch) 2 stopGang = true ∧
       s.context 0 3 = some poolCtx ∧ s.lnCore 0 poolCtx.home = some D ∧
       (saves s).map (fun t => decide (t.launchAt 0 4 = some (stopLaunch))) = some true) ∧
    (let l := placed1 { gang1 with started := true }
     let s := dispatch [l] id
     s.placed 0 (partOf0 s) 4 l 2 ∧
       (l.gangs.find? (fun y => (l.gangCores 0 y).contains C && !y.ended.contains C) = some { gang1 with started := true } ∧
         s.crewAlive (partOf0 s).live 0 3 2 (s.core C).cfg.ln = false ∧ (s.core (s.standIn C)).records = [] ∧
         ¬ (∀ d ∈ l.gangCores 0 gang1, d = C ∨ d ∈ ([] : List CoreId)) ∧ (∀ d ∈ l.gangCores 0 gang1, d = C ∨ d ∈ [D]) ∧
         gang1.stopping = false ∧ l.saved = [] ∧ { l with saved := [saved0] }.saved ≠ [] ∧ l.stopping = false)) ∧
    (let s := sent (dispatch [placed1 gang1] id) D C false (.faultRec 0 2 fault0)
     Arrives s 0 (first s) (.faultRec 0 2 fault0) ∧ s.part 0 = some (partOf0 s) ∧ (partOf0 s).slotLaunch 2 = some (placed1 gang1) ∧
       (partOf0 s).launch 4 = some (placed1 gang1) ∧ (placed1 gang1).fault = none ∧
       { placed1 gang1 with fault := some fault0 }.fault = some fault0) ∧
    (let l : Launch := { placed1 gang1 with stopping := true }
     let s := withMember (dispatch [l] id) .ready
     s.placed 0 (partOf0 s) 4 l 2 ∧ l.stopping = true ∧ l.dumping = false) ∧
    (let l : Launch := { placed1 gang1 with gangs := [], state := .sweeping }
     let s := dispatch [l] id
     s.part 0 = some (partOf0 s) ∧ (partOf0 s).slotLaunch 2 = some l ∧ (partOf0 s).launch l.order = some l ∧ l.sweep = none ∧
       s.sweepSums (partOf0 s).live 2 = (0, 0, true) ∧ (partOf0 s).period ≠ 77 ∧
       ((dispatch [l] id).modCore D (fun k => { k with lctr := [(2, ⟨1, 0⟩)] })).sweepSums (partOf0 s).live 2 = (1, 0, true)) ∧
    (let s := doneState
     s.part 0 = some (partOf0 s) ∧ endsAt s completing0 = true ∧ completing0.state = .completing ∧ completing0.home = 1 ∧
       endsAt failState failing0 = true ∧ failing0.state = .waitdep ∧ failState.deps 0 (recDeps failing0.words) = .failed ∧
       recDone (words8 1 0) = 0 ∧ recDone doneWords = 0x10440 ∧ recDone failing0.words = 0x10440 ∧ completing0.torn = false ∧
       ((trState doneTo).core (homeOf 0x10440)).cfg.fwdValid = false ∧
       trOk doneTo 0x10440 sampleLeaf = true ∧ isHost 0x10440 = false ∧ inControl (offOf 0x10440) = false ∧
       inControl (offOf (0x10440 + 8)) = false ∧ homeOf (0x10440 + 8) = homeOf 0x10440) ∧
    CalmHome (trState doneTo) (homeOf 0x10440) sampleLeaf false ∧
    (let s (g : CoreId) (off : Int) := (dispatch [] id).modCore g (fun k => { k with cfg := { k.cfg with groom := true }, tscOff := off })
     (s C 5).part 0 = some (partOf0 (s C 5)) ∧ (partOf0 (s C 5)).live = [C, D] ∧ (s C 5).timeGroom 0 (partOf0 (s C 5)) = some C ∧
       ([C, D].map coreKey).Nodup ∧ (s C 5).now D < (s C 5).now C ∧ (s D 0).timeGroom 0 (partOf0 (s D 0)) = some D ∧
       ((s D 0).modCore C (fun k => { k with tscOff := 1 })).now D < ((s D 0).modCore C (fun k => { k with tscOff := 1 })).now C) ∧
    (let s (pos : Nat) (sent : Option Nat) := dispatch [] (fun x => { x with newMap := some (map0 pos sent), period := 7 })
     (s 0 none).part 0 = some (partOf0 (s 0 none)) ∧ (partOf0 (s 0 none)).newMap = some (map0 0 none) ∧ ([D, C].map coreKey).Nodup ∧
       isHost 0x10000 = false ∧ inControl (offOf 0x10000) = false ∧ isHost 0x10044 = false ∧ inControl (offOf 0x10044) = false ∧
       ((s 0 none).core (homeOf 0x10000)).cfg.fwdValid = false ∧ (map0 1 none).live[0]? = some D ∧ (map0 2 none).live[1]? = some C ∧
       (map0 3 none).pos = (map0 3 none).live.length + 1 ∧ (partOf0 (s 6 (some 7))).newMap = some (map0 6 (some 7)) ∧
       (partOf0 (s 6 (some 7))).period ≤ (some 7).getD 0 ∧ (some 6).getD 0 < (partOf0 (s 6 (some 6))).period) ∧
    CalmHome (dispatch [] (fun x => { x with newMap := some (map0 0 none), period := 7 })) (homeOf 0x10000) 0 false :=
  ⟨⟨placed_of (by decide +kernel), by decide +kernel⟩, ⟨placed_of (by decide +kernel), by decide +kernel⟩,
   ⟨placed_of (by decide +kernel), by decide +kernel⟩, ⟨placed_of (by decide +kernel), by decide +kernel⟩,
   ⟨arrives_of (by decide +kernel), by decide +kernel⟩, ⟨placed_of (by decide +kernel), by decide +kernel⟩, by decide +kernel,
   by decide +kernel, home_of (by decide +kernel), by decide +kernel, by decide +kernel, home_of (by decide +kernel)⟩

/-! ### The supervisor, the debug module, the host and the package -/

def base (f : Partition → Partition) (h : Core → Core) : State := (two id h id).modPart 0 (fun x => f { x with contexts := [context0] })
def inv0 : InvOp :=
  { kind := 0, ref := some refC, all := true, vmid := 0, asid := 0, base := 0x10000, len := 64, tsc := 5, ln := 0, delivered := none, clear := [] }
def walk0 : Walk :=
  { cluster := clusterOf C, core := C, vmid := 0, asid := 3, va := 0x12345, barrel := none, uid := some 9, queued := false, marked := false,
    retry := none }
def walking (w : Walk) : State := { base id id with walks := [w] }
/-- A walk whose tables stand at 0x4000, 0x8000, 0xC000 and 0x14000 and end in a leaf. -/
def tabled : State :=
  let s := (walking walk0).modPart 0 (fun x => { x with contexts := [{ context0 with root := 0x4001 }] })
  let l : List (Nat × Nat) := [(0x4000, 0x8001), (0x8000, 0xC001), (0xC000, 0x14001), (0x14008, 0x1023F)]
  { s with mem := l.foldl (fun m e => memWrite m e.1 (leBytes 8 e.2)) s.mem }
def walkEnd (s : State) : Option (Bool × Nat) :=
  let s0 : State := { s with walks := startQueued walk0.cluster (dropAt s.walks 0) }
  match s0.walk C 3 walk0.va with
  | .fail level _ _ => some (false, level)
  | .leaf _ sh _ _ => some (true, sh)
  | .bad _ _ => none
def slot0 : LogSlot :=
  { asid := 3, snapAsid := 3, policy := 0, shsize := 1, shbase := 0x100, maxseam := 4, rsv := 0, snap := 0, snapsz := 0, cur := 5, starts := 1, seams := [],
    busy := none, frozen := false, lost := true }
def seamReq0 : SeamReq := ⟨1, none, 3⟩
/-- A launch to be dumped, whose dump area is at `va`. -/
def dumping0 (va : Word) (mem : List (Nat × Nat)) : State :=
  let s := base (fun x => { x with launches := [{ launch0 with dumping := true }], dumpQueue := [4] }) (fun k =>
    { k with cfg := { k.cfg with dumpctl := 3, dumpva := va },
             coreTlb := [{ fetchTlb with asid := 3, shift := 26, vpn := 1, leaf := wd (0x4000000 + 0x2BF) }] })
  { s with mem := mem.foldl (fun m e => memWrite m e.1 (leBytes 8 e.2)) s.mem }
def dumpAt (s : State) : DumpSlot := s.dumpSlot (homeCtx C 3) (s.core C).cfg.dumpva
def dumpEnd (s : State) : Option Bool :=
  match dumpAt s with
  | .full _ => some false
  | .slot va size s1 => (s1.writeDump 0 (partOf0 s) 3 [{ launch0 with dumping := true }] [] (homeCtx C 3) va size).map (fun _ => true)
  | .wait => none
theorem test_witness_SupervisorAndDebugSteps :
    (let s := base (fun x => { x with invq := [inv0], period := 7 }) id
     s.part 0 = some (partOf0 s) ∧ (∀ r ∈ (partOf0 s).invq, r.delivered ≠ some (partOf0 s).period) ∧
       nextInv (partOf0 s).invq = some inv0) ∧
    (let q : InvOp := { inv0 with delivered := some 5 }
     let s := (two (nine id) id id).modPart 0 (fun x => { x with invq := [q], period := 7 })
     s.part 0 = some (partOf0 s) ∧ (partOf0 s).invq = [q] ∧ 5 < (partOf0 s).period ∧ s.allClear 0 q = true ∧ q.ref = some refC ∧
       s.strandAt C 0 = some (nine id T0) ∧ (nine id T0).uid = refC.uid ∧ (nine id T0).stat.qbound = false) ∧
    ((walking walk0).walks[0]? = some walk0 ∧ walk0.queued = false ∧ walk0.retry = none ∧ walk0.marked = false ∧
      walkEnd (walking walk0) = some (false, 4) ∧ walkEnd tabled = some (true, 16) ∧ walk0.uid = some 9) ∧
    (let w : Walk := { walk0 with retry := some 0 }
     let full (n m : Nat) : State :=
       { base id id with walks := w :: (List.replicate n walk0 ++ List.replicate m { walk0 with queued := true }) }
     let mine (s : State) := s.walks.filter (fun y => decide (y.cluster = w.cluster) && y.retry.isNone)
     (full 0 0).walks[0]? = some w ∧ 0 ≤ (full 0 0).cycle ∧ (mine (full 0 0)).length = 0 ∧
       ((mine (full 32 0)).filter (fun y => !y.queued)).length = 32 ∧ ((mine (full 32 0)).filter (fun y => y.queued)).length = 0 ∧
       ((mine (full 32 64)).filter (fun y => y.queued)).length = 64) ∧
    (let l : Launch := { placed1 gang1 with slot := some 0 }
     let s := (base (fun x => { x with launches := [l] }) id).modCore C (fun k => { k with slots := [(5, { member .ready with lslot := some 0 })] })
     (s.core C).cfg.cls = .live ∧ inPaddock (growPaddocks 4096 (paddockAt 0 (C.x, C.y) :: s.pkg.paddocks)) C = true ∧ (s.core C).owned = true ∧
       s.part (s.partOf C) = some (partOf0 s) ∧ l ∈ (partOf0 s).launches ∧ (partOf0 s).launch l.order = some l ∧ s.slotOn C 0 = true ∧
       l.fault = none) ∧
    (let s := base (fun x => { x with losing := some false, held := true }) (fun k => { k with cfg := { k.cfg with cls := .dead } })
     (s.core C).cfg.cls = .dead ∧ s.part (s.partOf C) = some (partOf0 s) ∧ (partOf0 s).losing = some false ∧ (partOf0 s).newMap = none ∧
       (partOf0 s).launches = []) ∧
    (let s := base (fun x => { x with period := 7, logs := [(1, slot0)], seamReqs := [seamReq0, { seamReq0 with slot := 2 }] }) id
     s.part 0 = some (partOf0 s) ∧ ((partOf0 s).seamTurn 1).1 ≠ [] ∧ List.lookup 1 (partOf0 s).logs = some slot0 ∧ slot0.off = false ∧
       s.contextStill 0 (partOf0 s) slot0.asid none = true ∧ slot0.snapsz = 0) ∧
    (let s := (base (fun x => { x with period := 7, logs := [(1, slot0)], seamReqs := [seamReq0] }) id).modCore D (fun k =>
       { k with slots := [(5, { member .ready with lslot := some 0 })] })
     let s := s.modPart 0 (fun x => { x with launches := [{ placed1 gang1 with slot := some 0 }] })
     ((partOf0 s).seamTurn 1).1 ≠ [] ∧ s.contextStill 0 (partOf0 s) slot0.asid none = false) ∧
    (let s := sent (base (fun x => { x with logs := [(1, slot0)] }) id) D C false (.fray 0 3)
     Arrives s 0 (first s) (.fray 0 3) ∧ (got1 s).logSlotOf 0 3 = some (1, slot0)) ∧
    (((base id stopped).core C).dbg.stop = true ∧ ((base id stopped).core C).dbg.stopped = false ∧
      ((base id stopped).core C).atBoundary = true ∧
      ({ (base id stopped).core C with slots := [(0, { T0 with run := .departing D none })] }).atBoundary = false) ∧
    (let l : Launch := { launch0 with dumping := true }
     let s := dumping0 0 []
     s.part 0 = some (partOf0 s) ∧ s.headCore 0 = some C ∧ (partOf0 s).dumpQueue.filterMap (partOf0 s).launch = [l] ∧ l.slot = none ∧
       dumpEnd s = some false ∧ (s.core C).cfg.dumpctl.toNat % 2 ^ 16 = 3 ∧
       dumpEnd (dumping0 0x4000000 [(0x4000000, 1), (0x4000008, 0x10000)]) = some true) :=
  ⟨by decide +kernel, by decide +kernel, by decide +kernel, by decide +kernel, by decide +kernel, by decide +kernel, by decide +kernel,
   by decide +kernel, ⟨arrives_of (by decide +kernel), by decide +kernel⟩, by decide +kernel, by decide +kernel⟩

def door0 : Doorbell := ⟨2, 3, 0, 9⟩
/-- The package with a doorbell and a window of partition 0; the partition holds VF `vf`; the page has the permissions of `leaf`. -/
def hosted (vf : Nat) (leaf : Word) : State :=
  let s := base (fun x => { x with vf := vf }) (fun k => { k with coreTlb := [{ fetchTlb with asid := 3, leaf := leaf }] })
  { s with pkg := { s.pkg with doorbells := [(5, door0)], vfs := [(2, { part := 0, vmid := 0, fabric := false, heldRecs := [] })],
                               windows := [(1, 0, 3, 0x10000)], shelves := [3], power := [(4, ⟨100, 10, 3, 0⟩)], stage := .rom } }
/-- A window access at an offset, with one access under way, and what the translation of its granule gives. -/
def hostJob (off : Nat) (op : HostOp) : HostJob := ⟨1, C, 3, 0, 0x10000 + off, op⟩
def pieceOf (s : State) (j : HostJob) (kind : Nat) : HostPa := (s.setJobs [j]).hostPa j kind
def placeOf : HostPa → Option (Nat × Word) | .ok pa leaf _ => some (pa, leaf) | _ => none
def paAfter (s : State) : HostPa → State | .ok _ _ t => t | .bad t => t | .wait => s
def openLeaf : Word := 0x103BF
def host1 : State := hosted 2 openLeaf
def readJob : HostJob := hostJob 0x104 (.read 8 [])
def writeJob : HostJob := hostJob 0x104 (.write [1, 2, 3, 4])
def atomJob : HostJob := hostJob 0x108 (.atomic 2 8 7 0)
def boot0 : EvBoot := ⟨5, [], [], []⟩
def afar : CoreId := ⟨1, 0, 0⟩
def farReq : MemReq := { req (.load 8 .none) .store with pa := 9, va := 9 }
def crossing : State := sent host1 C afar false (.request refD farReq)
def point0 : Checkpoint := { target := 77, part := 0, cells := [(0x10000, 5)], feEmpty := [] }
def answer1 (s : State) (leaf : Word) : Bool :=
  let t := paAfter s (pieceOf s atomJob kRead)
  placeOf (t.hostPa atomJob kAtomic) == some (0x10108, leaf) &&
    (match (paAfter t (t.hostPa atomJob kAtomic)).serve (homeOf 0x10108)
        { waitFor .store with pa := 0x10108, va := 0x10108, leaf := leaf, op := .amo .add 8 7 0 } (hostWriter 3 leaf) with
     | some (.value _ _ _ _, _) => true
     | _ => false)
theorem test_witness_HostAndPackageSteps :
    (let s := host1
     List.lookup 5 s.pkg.doorbells = some door0 ∧ s.part door0.part = some (partOf0 s) ∧ (partOf0 s).vf = door0.vf ∧
       (partOf0 (hosted 1 openLeaf)).vf ≠ door0.vf ∧ (List.lookup door0.vf (hosted 1 openLeaf).pkg.vfs).map (fun v => v.heldRecs.length) = some 0 ∧
       64 ≤ (List.replicate 64 (5, words8 1 0)).length) ∧
    (host1.hostOpen 3 0x104 8 = false ∧ host1.hostOpen 1 0x104 8 = true ∧ host1.hostOpen 1 (2 ^ 40 - 8) 8 = true) ∧
    (hostCaps ≤ hostCaps + 0x10000 ∧ hostBar0 ≤ hostBar0 + 0x1040 ∧ hostBar0 + 0x1040 < hostCaps ∧ 0x104 < hostBar0 ∧
      host1.linkUp 1 = true ∧ host1.linkUp 3 = false ∧ host1.pkg.hostJobs = []) ∧
    (host1.windowCtx 1 = some (C, 3, 0, 0x10000) ∧ (host1.setJobs [readJob]).pkg.hostJobs ≠ []) ∧
    ((match pieceOf (hosted 2 0x10000) readJob kRead with | .bad _ => true | _ => false) = true ∧
      (match pieceOf (host1.modCore C stopped) readJob kRead with | .wait => true | _ => false) = true ∧
      (let t := paAfter host1 (pieceOf host1 readJob kRead)
       placeOf (pieceOf host1 readJob kRead) = some (0x10104, openLeaf) ∧ t.landsAt 9 0x10104 = some 0x10104 ∧ isHost 0x10104 = false ∧
         inControl (offOf 0x10104) = false ∧ t.ecc = [] ∧ t.soft = [] ∧ (t.core (homeOf 0x10104)).merges = []) ∧
      min 8 (16 - 0x10104 % 16) = 8 ∧ min 24 (16 - 0x10104 % 16) ≠ 24) ∧
    (let t := paAfter host1 (pieceOf host1 writeJob kWrite)
     placeOf (pieceOf host1 writeJob kWrite) = some (0x10104, openLeaf) ∧ t.logSlotOf (t.partOf (homeOf 0x10104)) 3 = none ∧
       CalmHome t (homeOf 0x10104) openLeaf false) ∧
    (placeOf (pieceOf host1 atomJob kRead) = some (0x10108, openLeaf) ∧ lfSysatom openLeaf = true ∧ answer1 host1 openLeaf = true) ∧
    (placeOf (pieceOf (hosted 2 0x1023F) atomJob kRead) = some (0x10108, 0x1023F) ∧ lfSysatom 0x1023F = false) ∧
    (host1.pkg.stage ≠ .off ∧ (List.replicate 32 (0 : Byte)).length = 32) ∧
    (List.lookup 4 host1.pkg.power = some ⟨100, 10, 3, 0⟩ ∧ 100 < 101 ∧ 4 < 10 ∧ 4 ≤ 4 ∧ 10 * 89 < 9 * 100 ∧ 10 < 16) ∧
    (let s := host1
     (s.part 0).isSome = true ∧ s.shelfLinks 8 = true ∧ ((s.holdPass 0).1, (s.holdPass 0).2.1) = (false, 0) ∧
       ((launched { running0 with stopping := true } s).holdPass 0).1 = true) ∧
    (let s : State := { host1 with pkg := { host1.pkg with checkpoints := [point0] } }
     s.pkg.checkpoints.find? (fun y => decide (y.target = 77) && decide (y.part = 0)) = some point0 ∧
       ((s.holdPass 0).1, (s.holdPass 0).2.1) = (false, 0) ∧ Memory.wf ((s.holdPass 0).2.2.settle 0).mem = true ∧
       Memory.wf point0.cells = true ∧ (∀ e ∈ point0.cells, ((s.holdPass 0).2.2.settle 0).inDramOf 0 e.1 = true)) ∧
    (crossing.net[0]? = some (first crossing) ∧ (first crossing).src.w ≠ (first crossing).dst.w ∧
      (first crossing).body = .request refD farReq ∧ (first crossing).fwd < 16 ∧ 16 ≤ { first crossing with fwd := 16 }.fwd) :=
  ⟨by decide +kernel, by decide +kernel, by decide +kernel, by decide +kernel, by decide +kernel,
   ⟨by decide +kernel, by decide +kernel, home_of (by decide +kernel)⟩, by decide +kernel, by decide +kernel,
   by decide +kernel, by decide +kernel, by decide +kernel, by decide +kernel, by decide +kernel⟩
/-- Without paddocks a position adds 8 to the sum of a wheel wire. -/
theorem wirePath_le (w rx ry n x y : Nat) : wirePath [] w rx ry n x y ≤ 8 * n := by
  induction n generalizing x y with
  | zero => simp [wirePath]
  | succ n ih =>
    simp only [wirePath, wireDetour, List.map_nil, List.sum_nil]
    split
    · have := ih (if x < rx then x + 1 else x - 1) y; omega
    · split
      · have := ih x (if y < ry then y + 1 else y - 1); omega
      · omega
theorem foldl_max_le (l : List Nat) (m b : Nat) (hm : m ≤ b) (h : ∀ x ∈ l, x ≤ b) : l.foldl max m ≤ b := by
  induction l generalizing m with
  | nil => exact hm
  | cons x t ih => exact ih _ (Nat.max_le.2 ⟨hm, h x (by simp)⟩) (fun y hy => h y (by simp [hy]))
theorem wheelPeriod_le (f : Fields) : wheelPeriod [] f ≤ 4096 := by
  have h : ∀ l : List Nat, (∀ x ∈ l, x ≤ 1024) → max 1024 (roundUp (2 * l.foldl max 0 + 32) 64) ≤ 4096 := by
    intro l hl
    have := foldl_max_le l 0 1024 (by omega) hl
    simp only [roundUp]; omega
  refine h _ (fun x hx => ?_)
  simp only [List.mem_flatten, List.mem_map] at hx
  obtain ⟨_, ⟨a, _, rfl⟩, hx⟩ := hx
  obtain ⟨b, _, rfl⟩ := List.mem_map.1 hx
  exact wirePath_le _ _ _ 128 _ _
theorem test_witness_HostAndPackageSteps_boot :
    boot0.wafer < 64 ∧ (∀ e ∈ host1.cores, (coreOfKey e.1).w ≠ boot0.wafer) ∧
      wheelPeriod (bootPads boot0) (wholeWafer boot0.wafer) ≤ 4096 :=
  ⟨by decide +kernel, by decide +kernel, wheelPeriod_le _⟩

/-! ### Addresses -/

/-- A user strand in a gang at core C of 2 by 1 cores. -/
def userCtx : XCtx := { placeCtx C T0 with priv := false }
def privCtx : XCtx := { placeCtx C T0 with priv := true }
theorem test_witness_ResolveOfUntranslatedForms :
    (((2 ^ 30 - 8 : Word).toNat : Int) + 7 < 2 ^ 30 ∧ ((2 ^ 30 - 8 : Word).toNat : Int) + 8 = 2 ^ 30 ∧ ((0 : Word).toNat : Int) + (-1) < 0) ∧
    ((2 ^ 46 : Word).toNat / 2 ^ 46 = 1 ∧ (2 ^ 46 - 1 : Word).toNat / 2 ^ 46 = 0) ∧
    (T0.gang.toNat / 2 ^ 16 % 256 = 0 ∧ (C.x : Int) + 0 ≤ 0 ∧ (C.y : Int) + (-1) < 0) ∧
    ((pair T0 id id).lnCore ((pair T0 id id).partOf C) ((1 : Word).toNat * 2 ^ 30 / 2 ^ 30) = some D ∧
      (pair T0 id id).lnCore ((pair T0 id id).partOf C) 0xFFFF = none) ∧
    (userCtx.priv = false ∧ privCtx.priv = true ∧ ((2 ^ 52 - 1 : Word).toNat : Int) + 1 = 2 ^ 52 ∧ ((2 ^ 52 - 1 : Word).toNat : Int) < 2 ^ 52) ∧
    (isHost 0x1FFFFFFF = false ∧ S0.reachable C false 0x1FFFFFFF = true ∧ S0.reachable C true 0x30000000 = true ∧
      S0.reachable C true 0x3000FFFF = true ∧ S0.reachable C false 0x20000000 = true ∧ S0.reachable C false 0x200FFFFF = true ∧
      S0.reachable C false 0x20100000 = true ∧ S0.reachable C false 0x30010000 = true ∧ S0.reachable C false (coreBase D) = false) := by
  decide +kernel

/-- A load and a store that the page does not permit, and misaligned ones. -/
def Srx : State := (sample T0 (fun k => { k with coreTlb := [{ fetchTlb with leaf := 0x10007 }], micTlb := k.micTlb.set 0 [] }))
theorem test_witness_ScalarAccessFaults :
    T0.lds = [] ∧ Ready Srx C 0 T0 .none [4, 1] ∧
    (∃ f, trFaults (Srx.resolve (scalarCtx C 0 T0) T0 .va (T0.reg 4) 0 2 (BitVec.ofNat 64 (256 * 14))) f = true) ∧
    (∃ f, trFaults (Srx.resolve (scalarCtx C 0 T0) T0 .loc (-8) 0 1 (BitVec.ofNat 64 (256 * 12))) f = true) ∧
    (trOk (S0.resolve (scalarCtx C 0 T0) T0 .va (T0.reg 4 + 1) 0 1 (BitVec.ofNat 64 (256 * 12))) 0x10001 sampleLeaf = true ∧
      0x10001 % bytesOf .d ≠ 0) ∧
    (trOk (S0.resolve (scalarCtx C 0 T0) T0 .va (T0.reg 4 + 1) 0 2 (BitVec.ofNat 64 (256 * 14))) 0x10001 sampleLeaf = true) :=
  ⟨rfl, ready_of (by decide +kernel), ⟨fPermission 2 (T0.reg 4) 0x10007, by decide +kernel⟩, ⟨fBound .loc (-8) 0, by decide +kernel⟩,
   by decide +kernel, by decide +kernel⟩

/-- Addresses on core D: by number, and through a page whose frame is there. -/
def Tfar : Strand := strand [(2, 2 ^ 30 + 0x20000100), (4, 0x10000), (3, 77)] id
def farLeaf : Word := BitVec.ofNat 64 (coreBase D) + 0x102BF
def Sfar : State := pair Tfar (fun k =>
  { k with coreTlb := [{ fetchTlb with leaf := farLeaf }], micTlb := k.micTlb.set 0 [{ fetchTlb with leaf := farLeaf }] }) id
def farPa : Nat := coreBase D + 0x20000100
theorem test_witness_AccessesOfAnotherCore :
    Ready Sfar C 0 Tfar .none [2, 4, 3] ∧
    (homeOf farPa ≠ C ∧ (homeOf farPa).w = C.w ∧ isHost farPa = false ∧ lfMirror 0 = false ∧ Tfar.lds = [] ∧ Tfar.posts = [] ∧
      farPa % 8 = 0 ∧ Tfar.pinned = false ∧ { Tfar with pinc := 1 }.pinned = true ∧ Tfar.stat.log = false) ∧
    trOk (Sfar.resolve (scalarCtx C 0 Tfar) Tfar .ln (Tfar.reg 2) 0 1 (BitVec.ofNat 64 (256 * 12))) farPa 0 = true ∧
    trOk (Sfar.resolve (scalarCtx C 0 Tfar) Tfar .ln (Tfar.reg 2) 0 2 (BitVec.ofNat 64 (256 * 14))) farPa 0 = true ∧
    (homeOf (coreBase D + 0x10000) ≠ C ∧ lfMirror farLeaf = false ∧
      trOk (Sfar.resolve (scalarCtx C 0 Tfar) Tfar .go (Tfar.reg 4) 0 1 (BitVec.ofNat 64 (256 * 12))) (coreBase D + 0x10000) farLeaf = true) :=
  ⟨ready_of (by decide +kernel), by decide +kernel, by decide +kernel, by decide +kernel, by decide +kernel⟩

/-! ### Decoding and steps -/

theorem test_witness_DecodeOfEncode :
    (Instr.add ⟨.none, 1, 2, 3⟩).wf = true ∧ encode (.add ⟨.none, 1, 2, 3⟩) = some [0x014C] ∧
    (Instr.barrelTurn ⟨C⟩ |> encode) = none ∧ guardOf (.barrelTurn ⟨C⟩) = none ∧
    decodeHalves [0xFC95, 0xF401, 0x64A3] = .ok (.ld ⟨.p0, .stay, true, .fe, .w, 4, 5, 3⟩, 3) :=
  ⟨by decide, by decide, by decide, rfl, by decide⟩

/-- The strand fetches the two words of ADDI r2, r3 with an immediate prefix, at the sample's address. -/
def Sfetch : State := State.reset.placeFetch 32 (0xF004 + 2 ^ 16 * 0x5300)
def fetched (s : State) (st : Strand) : Option (List Nat × State) :=
  match State.fetch 5 s C 0 st [] with | .ok hs t => some (hs, t) | _ => none
/-- The step's turn, with the strand that has it. -/
def Sat : State := { Sfetch with turns := [], cur := some (C, 0) }
def Tfetch : Strand := ((Sat.curStrand).map (fun x => x.2.2)).getD T0
theorem test_witness_StepRunsDecodedInstruction :
    AtIssue Sfetch C 0 Tfetch Sat ∧ (fetched Sat Tfetch).map (fun x => x.1) = some [0xF004, 0x5300] ∧
    ((Sat.core C).breakpoint Tfetch = none ∧ isPrefixWord 0xF004 = true ∧ isPrefixWord 0x5300 = false) ∧
    ({ Sfetch with agenda := [.debugStop ⟨C⟩] } : State).agenda = [.debugStop ⟨C⟩] :=
  ⟨{ agenda := rfl, running := rfl, inLine := by decide +kernel, state := rfl, turn := by decide +kernel, core := by decide +kernel,
     noStop := by decide +kernel, notFrozen := by decide +kernel, ready := by decide +kernel, noTrap := by decide +kernel },
   by decide +kernel, by decide +kernel, rfl⟩
theorem test_witness_StepRunsDecodedInstruction_fetch :
    FetchesAt Sat C 0 Tfetch Tfetch.pc 0xF004 0x10000 fetchTlb.leaf ∧ FetchesAt Sat C 0 Tfetch (Tfetch.pc + 2) 0x5300 0x10002 fetchTlb.leaf :=
  ⟨⟨by rfl, by rfl, by rfl, by decide +kernel⟩, ⟨by rfl, by rfl, by rfl, by decide +kernel⟩⟩
theorem test_witness_StepRunsDecodedInstruction_words : decodeHalves [0xF004, 0x5300] = .ok (.movi ⟨.none, 3, 1024⟩, 2) := by decide +kernel

theorem test_witness_StepKeepsMemoryCanonical :
    Memory.wf Sfetch.mem = true ∧ (match step Sfetch with | .next t => Memory.wf t.mem | _ => false) = true := by decide +kernel

/-! ### Words from the encodings of 02 R47, R51 and R62 to R68, field by field -/

def rrr (major d a b fn : Nat) : Nat := 2 ^ 11 * major + 2 ^ 8 * d + 2 ^ 5 * a + 4 * b + fn
def rri (major d a imm5 : Nat) : Nat := 2 ^ 11 * major + 2 ^ 8 * d + 2 ^ 5 * a + imm5
def i8 (major d imm8 : Nat) : Nat := 2 ^ 11 * major + 2 ^ 8 * d + imm8
def b8 (major c disp8 : Nat) : Nat := 2 ^ 11 * major + 2 ^ 8 * c + disp8
def sub (major sub x : Nat) : Nat := 2 ^ 11 * major + 2 ^ 5 * sub + x
def ximm (payload : Nat) : Nat := 0xF000 + payload
def xreg (d a b c size : Nat) : Nat := 0xF400 + 2 ^ 9 * d + 2 ^ 8 * a + 2 ^ 7 * b + 2 ^ 3 * c + size
def paged (page ext : Nat) : Nat := 0xF800 + 2 ^ 6 * page + ext
def qual (guard form order fe : Nat) : Nat := 0xFC00 + 2 ^ 7 * guard + 2 ^ 4 * form + 2 ^ 2 * order + fe
/-- Each list of words decodes to its instruction, whole. -/
def decodes (l : List (List Nat × Instr)) : Bool :=
  l.all (fun e => match decodeHalves e.1 with | .ok (i, n) => decide (i = e.2) && n == e.1.length | .error _ => false)

theorem test_words_page0_a : decodes [
    ([rrr 0 5 2 3 0], .add ⟨.none, 5, 2, 3⟩), ([rrr 0 5 2 3 1], .sub ⟨.none, 5, 2, 3⟩), ([rrr 0 5 2 3 2], .and ⟨.none, 5, 2, 3⟩),
    ([rrr 0 5 2 3 3], .or ⟨.none, 5, 2, 3⟩), ([rrr 1 5 2 3 0], .xor ⟨.none, 5, 2, 3⟩), ([rrr 1 5 2 3 1], .shl ⟨.none, 5, 2, 3⟩),
    ([rrr 1 5 2 3 2], .shr ⟨.none, 5, 2, 3⟩), ([rrr 1 5 2 3 3], .sar ⟨.none, 5, 2, 3⟩), ([rrr 2 5 2 3 0], .mul ⟨.none, 5, 2, 3⟩),
    ([rrr 2 5 2 3 1], .mulhu ⟨.none, 5, 2, 3⟩), ([rrr 2 5 2 3 2], .min ⟨.none, 5, 2, 3⟩), ([rrr 2 5 2 3 3], .max ⟨.none, 5, 2, 3⟩),
    ([rrr 3 5 2 0 0], .mov ⟨.none, 5, 2⟩), ([rrr 3 5 2 0 1], .not ⟨.none, 5, 2⟩), ([rrr 3 5 2 0 2], .neg ⟨.none, 5, 2⟩),
    ([rrr 3 5 2 3 3], .lea ⟨.none, .d, 5, 2, 3⟩), ([rrr 4 6 2 3 0], .cmpeq ⟨.none, 2, true, 2, 3⟩),
    ([rrr 4 6 2 3 1], .cmpne ⟨.none, 2, true, 2, 3⟩), ([rrr 4 6 2 3 2], .cmplt ⟨.none, 2, true, 2, 3⟩),
    ([rrr 4 6 2 3 3], .cmpltu ⟨.none, 2, true, 2, 3⟩), ([rri 5 5 2 31], .addi ⟨.none, 5, 2, -1⟩),
    ([rri 6 5 2 31], .shli ⟨.none, 5, 2, 31⟩), ([rri 7 5 2 16], .shri ⟨.none, 5, 2, 16⟩), ([rri 8 5 2 1], .sari ⟨.none, 5, 2, 1⟩),
    ([rri 9 3 2 16], .cmpeqi ⟨.none, 3, false, 2, -16⟩), ([rri 9 7 2 15], .cmplti ⟨.none, 3, false, 2, 15⟩),
    ([i8 10 5 128], .movi ⟨.none, 5, -128⟩), ([i8 11 5 255], .movhi ⟨.none, 5, 255⟩),
    ([rri 12 5 2 31], .ld ⟨.none, .va, false, .none, .d, 5, 2, -1⟩),
    ([xreg 0 0 0 0 3, rri 13 5 2 1], .ldu ⟨.none, .va, false, .none, .b, 5, 2, 1⟩),
    ([qual 0 3 1 2, rri 14 5 2 1], .st ⟨.none, .loc, true, .ef, .d, 5, 2, 1⟩),
    ([qual 0 2 1 0, rri 15 5 2 1], .lds ⟨.none, .go, true, .none, .d, 5, 2, 1⟩),
    ([xreg 0 0 0 0 1, qual 0 4 2 0, rrr 16 5 2 3 0], .amoSwap ⟨.none, .rel, .ar, .w, 5, 2, 3⟩),
    ([xreg 0 0 0 12 1, qual 0 4 2 0, rrr 16 5 2 3 1], .amoCas ⟨.none, .rel, .ar, .w, 5, 2, 3, 12⟩),
    ([xreg 0 0 0 0 1, qual 0 4 2 0, rrr 16 5 2 3 2], .amoAdd ⟨.none, .rel, .ar, .w, 5, 2, 3⟩),
    ([xreg 0 0 0 0 1, qual 0 4 2 0, rrr 16 5 2 3 3], .amoMax ⟨.none, .rel, .ar, .w, 5, 2, 3⟩),
    ([qual 0 5 1 0, rrr 17 0 2 3 0], .redAdd ⟨.none, .ln, true, .d, 2, 3⟩),
    ([qual 0 5 1 0, rrr 17 0 2 3 1], .redAnd ⟨.none, .ln, true, .d, 2, 3⟩),
    ([qual 0 5 1 0, rrr 17 0 2 3 2], .redOr ⟨.none, .ln, true, .d, 2, 3⟩),
    ([qual 0 5 1 0, rrr 17 0 2 3 3], .redXor ⟨.none, .ln, true, .d, 2, 3⟩),
    ([qual 0 5 1 0, rrr 17 1 2 3 0], .redMin ⟨.none, .ln, true, .d, 2, 3⟩),
    ([qual 0 5 1 0, rrr 17 1 2 3 1], .redMax ⟨.none, .ln, true, .d, 2, 3⟩),
    ([qual 0 5 1 0, rrr 17 1 2 3 2], .redMinu ⟨.none, .ln, true, .d, 2, 3⟩),
    ([qual 0 5 1 0, rrr 17 1 2 3 3], .redMaxu ⟨.none, .ln, true, .d, 2, 3⟩),
    ([qual 0 5 1 0, rrr 17 2 2 3 0], .redFadd ⟨.none, .ln, true, .w, 2, 3⟩)] = true := by decide +kernel

theorem test_words_page0_b : decodes [
    ([qual 0 5 1 0, rrr 17 2 2 3 1], .redFmax ⟨.none, .ln, true, .w, 2, 3⟩),
    ([qual 0 5 1 0, rrr 17 2 2 3 2], .redFmin ⟨.none, .ln, true, .w, 2, 3⟩), ([b8 18 7 128], .br ⟨.none, .np3, -128⟩),
    ([xreg 1 0 0 0 0, b8 19 6 127], .call ⟨.none, 14, 127⟩), ([rrr 20 0 2 0 0], .jr ⟨.none, 2⟩), ([rrr 20 5 2 0 1], .jalr ⟨.none, 5, 2⟩),
    ([i8 21 5 200], .loop ⟨.none, 5, 200⟩), ([b8 22 1 254], .spawn ⟨.none, true, -2⟩),
    ([xreg 0 0 0 0 1, qual 0 6 0 0, rrr 23 5 2 3 0], .waiteq ⟨.none, .phys, .w, 5, 2, 3⟩),
    ([xreg 0 0 0 0 1, qual 0 6 0 0, rrr 23 5 2 3 1], .waitne ⟨.none, .phys, .w, 5, 2, 3⟩),
    ([xreg 0 0 0 0 1, qual 0 6 0 0, rrr 23 5 2 3 2], .waitge ⟨.none, .phys, .w, 5, 2, 3⟩),
    ([rrr 23 5 2 0 3], .waitany ⟨.none, .va, .d, 5, 2⟩), ([rrr 24 0 2 0 0], .fwait ⟨.none, 2⟩), ([rrr 24 0 2 0 1], .ftest ⟨.none, 2⟩),
    ([rrr 24 0 2 0 2], .fcancel ⟨.none, 2⟩), ([rrr 24 5 2 0 3], .fstatus ⟨.none, 5, 2⟩), ([sub 25 0 0], .nop ⟨.none⟩),
    ([sub 25 1 0], .exit ⟨.none⟩), ([sub 25 2 0], .join ⟨.none⟩), ([sub 25 3 0], .yield ⟨.none⟩), ([sub 25 4 0], .brkl ⟨.none⟩),
    ([sub 25 5 11], .fenceCore ⟨.none, 11⟩), ([sub 25 6 11], .fenceClus ⟨.none, 11⟩), ([sub 25 7 11], .fencePart ⟨.none, 11⟩),
    ([sub 25 8 11], .fenceFab ⟨.none, 11⟩), ([sub 25 9 11], .fenceSys ⟨.none, 11⟩), ([sub 25 10 31], .trap ⟨.none, 31⟩),
    ([sub 25 11 0], .pin ⟨.none⟩), ([sub 25 12 0], .unpin ⟨.none⟩)] = true := by decide +kernel

theorem test_words_page1_a : decodes [
    ([paged 1 0, rrr 0 5 2 3 0], .div ⟨.none, 5, 2, 3⟩), ([paged 1 0, rrr 0 5 2 3 1], .divu ⟨.none, 5, 2, 3⟩),
    ([paged 1 0, rrr 0 5 2 3 2], .rem ⟨.none, 5, 2, 3⟩), ([paged 1 0, rrr 0 5 2 3 3], .remu ⟨.none, 5, 2, 3⟩),
    ([paged 1 0, rrr 1 5 2 3 0], .minu ⟨.none, 5, 2, 3⟩), ([paged 1 0, rrr 1 5 2 3 1], .maxu ⟨.none, 5, 2, 3⟩),
    ([paged 1 0, rrr 1 5 2 3 2], .rotl ⟨.none, 5, 2, 3⟩), ([paged 1 0, rrr 1 5 2 3 3], .rotr ⟨.none, 5, 2, 3⟩),
    ([paged 1 0, rrr 2 5 2 0 0], .popc ⟨.none, 5, 2⟩), ([paged 1 0, rrr 2 5 2 0 1], .clz ⟨.none, 5, 2⟩),
    ([paged 1 0, rrr 2 5 2 0 2], .ctz ⟨.none, 5, 2⟩), ([paged 1 0, rrr 2 5 2 0 3], .brev ⟨.none, 5, 2⟩),
    ([paged 1 0, rrr 3 5 2 3 0], .bfx ⟨.none, 5, 2, 3⟩), ([paged 1 0, rrr 3 5 2 3 1], .bfi ⟨.none, 5, 2, 3⟩),
    ([paged 1 0, xreg 0 0 0 0 2, rrr 3 5 2 0 2], .bswap ⟨.none, .h, 5, 2⟩),
    ([paged 1 0, xreg 0 0 0 0 1, rrr 3 5 2 0 3], .sext ⟨.none, .w, 5, 2⟩), ([paged 1 0, rrr 4 5 2 3 0], .fadd ⟨.none, 5, 2, 3⟩),
    ([paged 1 0, rrr 4 5 2 3 1], .fsub ⟨.none, 5, 2, 3⟩), ([paged 1 0, rrr 4 5 2 3 2], .fmul ⟨.none, 5, 2, 3⟩),
    ([paged 1 0, rrr 4 5 2 3 3], .fdiv ⟨.none, 5, 2, 3⟩), ([paged 1 0, rrr 5 5 2 3 0], .fmin ⟨.none, 5, 2, 3⟩),
    ([paged 1 0, rrr 5 5 2 3 1], .fmax ⟨.none, 5, 2, 3⟩), ([paged 1 0, rrr 5 5 2 0 2], .fsqrt ⟨.none, 5, 2⟩),
    ([paged 1 0, rrr 5 5 2 0 3], .fabs ⟨.none, 5, 2⟩), ([paged 1 0, xreg 0 0 0 12 0, rrr 6 5 2 3 0], .fma ⟨.none, 5, 2, 3, 12⟩),
    ([paged 1 0, xreg 0 0 0 12 0, rrr 6 5 2 3 1], .fms ⟨.none, 5, 2, 3, 12⟩),
    ([paged 1 0, xreg 0 0 0 12 0, rrr 6 5 2 3 2], .fnma ⟨.none, 5, 2, 3, 12⟩),
    ([paged 1 0, xreg 0 0 0 12 0, rrr 6 5 2 3 3], .fnms ⟨.none, 5, 2, 3, 12⟩),
    ([paged 1 0, rrr 7 6 2 3 0], .fcmpeq ⟨.none, 2, true, 2, 3⟩), ([paged 1 0, rrr 7 6 2 3 1], .fcmplt ⟨.none, 2, true, 2, 3⟩),
    ([paged 1 0, rrr 7 6 2 3 2], .fcmple ⟨.none, 2, true, 2, 3⟩), ([paged 1 0, rrr 7 6 2 3 3], .fcmpun ⟨.none, 2, true, 2, 3⟩),
    ([paged 1 0, rrr 8 5 2 0 0], .cvtif ⟨.none, 5, 2⟩), ([paged 1 0, rrr 8 5 2 0 1], .cvtfi ⟨.none, 5, 2⟩),
    ([paged 1 0, rrr 8 5 2 0 2], .cvtfb ⟨.none, 5, 2⟩), ([paged 1 0, rrr 8 5 2 0 3], .cvtbf ⟨.none, 5, 2⟩),
    ([paged 1 0, rrr 9 5 2 0 0], .cvtf8 ⟨.none, 5, 2⟩), ([paged 1 0, rrr 9 5 2 0 1], .cvt8f ⟨.none, 5, 2⟩),
    ([paged 1 0, rrr 9 5 2 0 2], .cvtf6 ⟨.none, 5, 2⟩), ([paged 1 0, rrr 9 5 2 0 3], .cvt6f ⟨.none, 5, 2⟩),
    ([paged 1 0, rrr 10 6 2 0 0], .vntest ⟨.none, 2, true, 2⟩), ([paged 1 0, rrr 10 5 2 3 1], .vnrep ⟨.none, 5, 2, 3⟩),
    ([paged 1 0, rrr 10 5 2 0 2], .vninfo ⟨.none, 5, 2⟩), ([paged 1 0, rrr 11 5 2 0 0], .fneg ⟨.none, 5, 2⟩),
    ([paged 1 0, rrr 11 5 2 0 1], .fclass ⟨.none, 5, 2⟩)] = true := by decide +kernel

theorem test_words_page1_b : decodes [
    ([paged 1 0, i8 12 5 0x25], .mfs ⟨.none, 5, 0x25⟩), ([paged 1 0, i8 13 5 0x18], .mts ⟨.none, 5, 0x18⟩)] = true := by decide +kernel

theorem test_words_page2_a : decodes [
    ([paged 2 0, rrr 0 5 2 3 0], .vadd ⟨.none, none, none, 5, 2, 3⟩),
    ([paged 2 9, rrr 0 5 2 3 1], .vsub ⟨.none, some 0, some .i32, 5, 2, 3⟩),
    ([paged 2 18, rrr 0 5 2 3 2], .vmul ⟨.none, some 1, some .f32, 5, 2, 3⟩),
    ([paged 2 27, rrr 0 5 2 3 3], .vdiv ⟨.none, some 2, some .bf16, 5, 2, 3⟩),
    ([paged 2 38, rrr 1 5 2 3 0], .vmin ⟨.none, some 3, some .i8, 5, 2, 3⟩),
    ([paged 2 6, rrr 1 5 2 3 1], .vmax ⟨.none, none, some .i8, 5, 2, 3⟩),
    ([paged 2 4, rrr 1 5 2 3 2], .vand ⟨.none, none, some .t8, 5, 2, 3⟩),
    ([paged 2 5, rrr 1 5 2 3 3], .vor ⟨.none, none, some .t6, 5, 2, 3⟩),
    ([paged 2 13, rrr 2 5 2 3 0], .vxor ⟨.none, some 0, some .t6, 5, 2, 3⟩),
    ([paged 2 1, rrr 2 5 2 3 1], .vshl ⟨.none, none, some .i32, 5, 2, 3⟩),
    ([paged 2 6, rrr 2 5 2 3 2], .vshr ⟨.none, none, some .i8, 5, 2, 3⟩),
    ([paged 2 33, rrr 2 5 2 3 3], .vsar ⟨.none, some 3, some .i32, 5, 2, 3⟩),
    ([paged 2 2, xreg 0 0 0 12 0, rrr 3 5 2 3 0], .vfma ⟨.none, none, some .f32, 5, 2, 3, 12⟩),
    ([paged 2 3, xreg 0 0 0 12 0, rrr 3 5 2 3 1], .vfms ⟨.none, none, some .bf16, 5, 2, 3, 12⟩),
    ([paged 2 1, rrr 3 5 2 3 2], .vabsd ⟨.none, none, some .i32, 5, 2, 3⟩),
    ([paged 2 2, rrr 3 5 2 3 3], .vsqd ⟨.none, none, some .f32, 5, 2, 3⟩),
    ([paged 2 1, rrr 4 5 2 3 0], .vadds ⟨.none, none, some .i32, 5, 2, 3⟩),
    ([paged 2 2, rrr 4 5 2 3 1], .vmuls ⟨.none, none, some .f32, 5, 2, 3⟩),
    ([paged 2 3, rrr 4 5 2 3 2], .vmaxs ⟨.none, none, some .bf16, 5, 2, 3⟩),
    ([paged 2 4, rrr 4 5 2 0 3], .vsplat ⟨.none, none, some .t8, 5, 2⟩),
    ([paged 2 1, rrr 5 6 2 3 0], .vcmpeq ⟨.none, none, some .i32, 2, true, 2, 3⟩),
    ([paged 2 2, rrr 5 6 2 3 1], .vcmpne ⟨.none, none, some .f32, 2, true, 2, 3⟩),
    ([paged 2 3, rrr 5 6 2 3 2], .vcmplt ⟨.none, none, some .bf16, 2, true, 2, 3⟩),
    ([paged 2 14, rrr 5 6 2 3 3], .vcmple ⟨.none, some 0, some .i8, 2, true, 2, 3⟩),
    ([paged 2 9, rrr 6 5 2 3 0], .vsel ⟨.none, some 0, some .i32, 5, 2, 3⟩),
    ([paged 2 2, rrr 6 5 2 0 1], .vmov ⟨.none, none, some .f32, 5, 2⟩),
    ([paged 2 3, rrr 6 5 2 0 2], .vneg ⟨.none, none, some .bf16, 5, 2⟩),
    ([paged 2 6, rrr 6 5 2 0 3], .vabs ⟨.none, none, some .i8, 5, 2⟩),
    ([paged 2 1, rrr 7 5 2 0 0], .vredsum ⟨.none, none, some .i32, 5, 2⟩),
    ([paged 2 2, rrr 7 5 2 0 1], .vredmax ⟨.none, none, some .f32, 5, 2⟩),
    ([paged 2 3, rrr 7 5 2 0 2], .vredmin ⟨.none, none, some .bf16, 5, 2⟩),
    ([paged 2 6, rrr 7 5 2 0 3], .vredarg ⟨.none, none, some .i8, 5, 2⟩),
    ([paged 2 2, rrr 8 5 2 0 0], .vcvt ⟨.none, none, some .f32, 5, 2⟩),
    ([paged 2 4, rrr 8 5 2 0 1], .vscale ⟨.none, none, some .t8, 5, 2⟩),
    ([paged 2 1, rrr 8 5 0 0 2], .viota ⟨.none, none, some .i32, 5⟩),
    ([paged 2 33, rrr 8 5 2 0 3], .vcomp ⟨.none, some 3, some .i32, 5, 2⟩),
    ([paged 2 10, qual 0 1 1 1, rri 9 5 2 31], .vld ⟨.none, some 0, some .f32, .stay, true, .fe, 5, 2, -1⟩),
    ([paged 2 6, qual 0 0 1 2, rri 10 5 2 1], .vst ⟨.none, none, some .i8, .va, true, .ef, 5, 2, 1⟩),
    ([paged 2 1, qual 0 1 1 2, rrr 11 5 2 3 0], .vlds ⟨.none, none, some .i32, .stay, true, .fec, 5, 2, 3⟩),
    ([paged 2 2, qual 0 1 1 1, rrr 11 5 2 3 1], .vsts ⟨.none, none, some .f32, .stay, true, .ff, 5, 2, 3⟩),
    ([paged 2 4, qual 0 1 1 2, rrr 11 5 2 3 2], .vldb ⟨.none, none, some .t8, .stay, true, .fec, 5, 2, 3⟩),
    ([paged 2 5, qual 0 1 1 1, rrr 11 5 2 3 3], .vstb ⟨.none, none, some .t6, .stay, true, .ff, 5, 2, 3⟩),
    ([paged 2 3, qual 0 3 0 0, rrr 12 5 2 3 0], .vgath ⟨.none, none, some .bf16, .loc, 5, 2, 3⟩),
    ([paged 2 4, qual 0 3 0 0, rrr 12 5 2 3 1], .vscat ⟨.none, none, some .t8, .loc, 5, 2, 3⟩),
    ([paged 2 1, qual 0 3 0 0, rrr 12 5 2 3 2], .vscatadd ⟨.none, none, some .i32, .loc, 5, 2, 3⟩)] = true := by decide +kernel

theorem test_words_page2_b : decodes [
    ([paged 2 2, qual 0 3 0 0, rrr 12 5 2 3 3], .vscatmax ⟨.none, none, some .f32, .loc, 5, 2, 3⟩),
    ([paged 2 10, rrr 13 4 2 3 0], .vtopkins ⟨.none, some 0, some .f32, 4, 2, 3⟩),
    ([paged 2 2, rrr 13 5 2 0 1], .vtopkthr ⟨.none, none, some .f32, 5, 2⟩),
    ([paged 2 2, rrr 13 2 3 0 2], .vnmask ⟨.none, none, some .f32, 2, 3⟩),
    ([paged 2 2, rrr 13 5 2 3 3], .vnrepv ⟨.none, none, some .f32, 5, 2, 3⟩), ([paged 2 0, sub 14 0 0], .vbind ⟨.none⟩),
    ([paged 2 0, sub 14 1 0], .vfree ⟨.none⟩), ([paged 2 0, sub 14 2 11], .vsetl ⟨.none, 11⟩),
    ([paged 2 0, sub 14 3 11], .vgetl ⟨.none, 11⟩), ([paged 2 0, sub 14 4 0], .vwait ⟨.none⟩),
    ([paged 2 0, sub 14 5 11], .vpixrd ⟨.none, 11⟩)] = true := by decide +kernel

theorem test_words_page3 : decodes [
    ([paged 3 0, rrr 0 5 2 3 0], .rclaim ⟨.none, 5, 2, 3⟩), ([paged 3 0, rrr 0 0 2 3 1], .rpub ⟨.none, 2, 3⟩),
    ([paged 3 0, rrr 0 0 2 3 2], .rpop ⟨.none, 2, 3⟩), ([paged 3 0, rrr 0 5 2 3 3], .rpeek ⟨.none, 5, 2, 3⟩),
    ([paged 3 0, rrr 1 5 2 3 0], .rwaitf ⟨.none, 5, 2, 3⟩), ([paged 3 0, rrr 1 5 2 3 1], .rwaite ⟨.none, 5, 2, 3⟩),
    ([paged 3 0, rrr 1 5 2 0 2], .rstat ⟨.none, 5, 2⟩), ([paged 3 0, rrr 1 0 2 3 3], .rcfg ⟨.none, 2, 3⟩),
    ([paged 3 0, rrr 2 5 2 3 0], .rapp ⟨.none, 5, 2, 3⟩), ([paged 3 0, rrr 2 5 2 0 1], .rsteal ⟨.none, 5, 2⟩),
    ([paged 3 0, rrr 2 5 2 0 2], .rpopt ⟨.none, 5, 2⟩), ([paged 3 0, rrr 2 5 2 0 3], .rcred ⟨.none, 5, 2⟩),
    ([paged 3 0, rrr 3 0 2 0 0], .qbind ⟨.none, 2⟩), ([paged 3 0, rrr 3 0 0 0 1], .qfree ⟨.none⟩),
    ([paged 3 0, rrr 4 5 2 0 0], .copy ⟨.none, 5, 2⟩), ([paged 3 0, rrr 4 0 2 3 1], .bcset ⟨.none, 2, 3⟩),
    ([paged 3 0, rrr 4 5 2 3 2], .bcwait ⟨.none, 5, 2, 3⟩), ([paged 3 0, rrr 5 5 2 0 0], .mtask ⟨.none, 5, 2⟩),
    ([paged 3 0, rrr 5 0 2 3 1], .mprog ⟨.none, 2, 3⟩), ([paged 3 0, rrr 5 0 2 0 2], .mthr ⟨.none, 2⟩),
    ([paged 3 0, rrr 5 5 2 0 3], .mquery ⟨.none, 5, 2⟩)] = true := by decide +kernel

theorem test_words_page4 : decodes [
    ([paged 4 0, rrr 0 5 0 0 0], .barc ⟨.none, 5⟩), ([paged 4 0, rrr 0 5 2 0 1], .barg ⟨.none, 5, 2⟩),
    ([paged 4 0, rrr 0 0 2 0 2], .barga ⟨.none, 2⟩), ([paged 4 0, rrr 0 5 2 3 3], .bargw ⟨.none, 5, 2, 3⟩),
    ([paged 4 0, rrr 1 5 2 3 0], .wsum ⟨.none, 5, 2, 3⟩), ([paged 4 0, rrr 1 5 2 3 1], .wmax ⟨.none, 5, 2, 3⟩),
    ([paged 4 0, rrr 1 5 2 3 2], .wmin ⟨.none, 5, 2, 3⟩), ([paged 4 0, rrr 1 5 2 3 3], .wor ⟨.none, 5, 2, 3⟩),
    ([paged 4 0, rrr 2 5 2 0 0], .launch ⟨.none, 5, 2⟩), ([paged 4 0, rrr 2 5 2 0 1], .lstat ⟨.none, 5, 2⟩),
    ([paged 4 0, sub 3 0 11], .tsc ⟨.none, 11⟩), ([paged 4 0, sub 3 1 11], .whereAt ⟨.none, 11⟩),
    ([paged 4 0, sub 3 2 11], .lnum ⟨.none, 11⟩), ([paged 4 0, sub 3 3 11], .ganginfo ⟨.none, 11⟩),
    ([paged 4 0, sub 3 4 11], .crewinfo ⟨.none, 11⟩), ([paged 4 0, sub 3 5 11], .feat ⟨.none, 11⟩),
    ([paged 4 0, sub 3 6 11], .seam ⟨.none, 11⟩)] = true := by decide +kernel

theorem test_words_page5 : decodes [
    ([paged 5 0, i8 0 5 0x82], .mfsp ⟨.none, 5, 0x82⟩), ([paged 5 0, i8 1 5 0x40], .mtsp ⟨.none, 5, 0x40⟩),
    ([paged 5 0, i8 1 5 0x48], .vshareWrite ⟨.none, 5⟩), ([paged 5 0, i8 1 5 0x50], .dctlInstall ⟨.none, 5⟩),
    ([paged 5 0, i8 1 5 0x78], .logctlInstall ⟨.none, 5⟩), ([paged 5 0, i8 1 5 0x79], .logcmdSeam ⟨.none, 5⟩),
    ([paged 5 0, rrr 2 5 2 3 0], .invr ⟨.none, 5, 2, 3⟩), ([paged 5 0, rrr 2 0 2 0 1], .inva ⟨.none, 2⟩),
    ([paged 5 0, rrr 2 0 2 3 2], .icinv ⟨.none, 2, 3⟩), ([paged 5 0, rrr 3 0 0 0 0], .trapret ⟨.none⟩),
    ([paged 5 0, rrr 3 0 2 3 1], .reinj ⟨.none, 2, 3⟩), ([paged 5 0, rrr 3 0 2 0 2], .ctxsave ⟨.none, 2⟩),
    ([paged 5 0, rrr 3 0 2 0 3], .ctxload ⟨.none, 2⟩), ([paged 5 0, rrr 4 5 2 0 0], .quiesceHold ⟨.none, 5, 2⟩),
    ([paged 5 0, rrr 4 5 2 0 1], .partset ⟨.none, 5, 2⟩), ([paged 5 0, rrr 4 5 2 0 2], .wswitch ⟨.none, 5, 2⟩),
    ([paged 5 0, rrr 4 0 0 0 3], .halt ⟨.none⟩), ([paged 5 0, rrr 5 5 2 0 0], .ctrrd ⟨.none, 5, 2⟩),
    ([paged 5 0, rrr 5 0 2 3 1], .ctrcfg ⟨.none, 2, 3⟩), ([paged 5 0, rrr 5 0 2 0 2], .ctrsave ⟨.none, 2⟩),
    ([paged 5 0, rrr 5 0 2 0 3], .ctrload ⟨.none, 2⟩), ([paged 5 0, rrr 6 0 2 3 0], .mirset ⟨.none, 2, 3⟩),
    ([paged 5 0, rrr 6 0 2 3 1], .mirsync ⟨.none, 2, 3⟩), ([paged 5 0, rrr 6 0 2 3 2], .retire ⟨.none, 2, 3⟩)] = true := by decide +kernel

/-- 02 R51 to R55: prefixes in any order, the four XREG bits, the guards, immediates of several XIMM words. -/
theorem test_prefixes : decodes [
    ([xreg 1 0 0 0 0, rrr 0 5 2 3 0], .add ⟨.none, 13, 2, 3⟩), ([xreg 0 1 0 0 0, rrr 0 5 2 3 0], .add ⟨.none, 5, 10, 3⟩),
    ([xreg 0 0 1 0 0, rrr 0 5 2 3 0], .add ⟨.none, 5, 2, 11⟩), ([qual 1 0 0 0, rrr 0 5 2 3 0], .add ⟨.p0, 5, 2, 3⟩),
    ([qual 4 0 0 0, rrr 0 5 2 3 0], .add ⟨.p3, 5, 2, 3⟩), ([qual 5 0 0 0, rrr 0 5 2 3 0], .add ⟨.np0, 5, 2, 3⟩),
    ([qual 7 0 0 0, rrr 0 5 2 3 0], .add ⟨.np2, 5, 2, 3⟩), ([ximm 0x3FF, rri 5 5 2 0], .addi ⟨.none, 5, 2, -32⟩),
    ([xreg 1 1 0 0 0, ximm 1, ximm 2, rri 5 5 2 3], .addi ⟨.none, 13, 10, (2 ^ 10 + 2) * 32 + 3⟩),
    ([xreg 1 0 0 0 0, rri 9 7 2 15], .cmplti ⟨.none, 3, true, 2, 15⟩), ([ximm 1, i8 21 5 0], .loop ⟨.none, 5, 256⟩),
    ([qual 3 2 1 3, xreg 0 0 0 0 3, ximm 1, rri 12 5 2 0], .ld ⟨.p2, .go, true, .ft, .b, 5, 2, 32⟩),
    ([0xF000, 0xF000, 0xF000, 0x51E8], .movi ⟨.none, 1, 232⟩), ([0xC800], .nop ⟨.none⟩), ([0x51E8], .movi ⟨.none, 1, -24⟩)] = true := by
  decide +kernel

def refused (hs : List Nat) (code : Nat) : Bool := match decodeHalves hs with | .error e => e.code == code | .ok _ => false
/-- The table of 02 R70. -/
theorem test_illegal_chains :
    refused [0xF000, 0xF000, 0xF000, 0xF000, 0xF000, 0x0328] 1 = true ∧ refused [0xFC00, 0xFC00, 0x0328] 2 = true ∧
    refused [0xF800, 0x0328] 3 = true ∧ refused [0xD000] 4 = true ∧ refused [0xFC70, 0x6443] 5 = true ∧ refused [0xF001, 0x0328] 7 = true ∧
    refused [0xF401, 0x0328] 8 = true ∧ refused [0x1C04] 10 = true ∧ refused [paged 1 0, i8 12 5 0x07] 11 = true := by decide +kernel

/-! ### Terms that WellFormed refuses, one for each of its checks -/

theorem test_ill_formed_immediates :
    [Instr.addi ⟨.p0, 9, 1, 2 ^ 24⟩, .cmpeqi ⟨.p0, 0, true, 1, 2 ^ 24⟩, .cmplti ⟨.none, 0, false, 1, 2 ^ 44⟩, .shli ⟨.none, 1, 1, 2 ^ 15⟩,
     .shri ⟨.none, 1, 1, 2 ^ 15⟩, .sari ⟨.none, 1, 1, 2 ^ 15⟩, .movi ⟨.p0, 8, 2 ^ 27⟩, .movhi ⟨.none, 1, 2 ^ 28⟩,
     .loop ⟨.none, 1, 0⟩, .loop ⟨.none, 1, 2 ^ 18⟩, .br ⟨.none, .alw, 2 ^ 27⟩, .call ⟨.none, 1, -(2 ^ 27) - 1⟩, .spawn ⟨.none, false, 2 ^ 27⟩,
     .trap ⟨.none, 32⟩, .ld ⟨.none, .va, false, .none, .d, 1, 2, 2 ^ 24⟩, .ldu ⟨.none, .va, false, .none, .d, 1, 2, 2 ^ 24⟩,
     .st ⟨.none, .va, false, .none, .d, 1, 2, 2 ^ 24⟩, .lds ⟨.none, .va, false, .none, .d, 1, 2, 2 ^ 24⟩].all (fun i => !i.wf) = true := by
  decide +kernel
theorem test_ill_formed_operands :
    [Instr.lds ⟨.none, .va, false, .ft, .d, 1, 2, 0⟩, .amoSwap ⟨.none, .va, .plain, .h, 1, 2, 3⟩, .amoAdd ⟨.none, .va, .plain, .b, 1, 2, 3⟩,
     .amoMax ⟨.none, .va, .plain, .h, 1, 2, 3⟩, .amoCas ⟨.none, .va, .plain, .h, 1, 2, 3, 4⟩, .amoCas ⟨.none, .va, .plain, .d, 1, 2, 3, 0⟩,
     .redAdd ⟨.none, .va, false, .b, 1, 2⟩, .redFadd ⟨.none, .va, false, .d, 1, 2⟩, .redFmax ⟨.none, .va, false, .d, 1, 2⟩,
     .redFmin ⟨.none, .va, false, .d, 1, 2⟩, .waiteq ⟨.none, .va, .h, 1, 2, 3⟩, .waitany ⟨.none, .va, .b, 1, 2⟩, .bswap ⟨.none, .b, 1, 2⟩,
     .sext ⟨.none, .d, 1, 2⟩, .fma ⟨.none, 1, 2, 3, 0⟩, .fms ⟨.none, 1, 2, 3, 0⟩, .fnma ⟨.none, 1, 2, 3, 0⟩, .fnms ⟨.none, 1, 2, 3, 0⟩,
     .mfs ⟨.none, 1, 0x07⟩, .mts ⟨.none, 1, 0x26⟩, .mfsp ⟨.none, 1, 0x42⟩, .mtsp ⟨.none, 1, 0x48⟩, .mtsp ⟨.none, 1, 0x83⟩].all
      (fun i => !i.wf) = true := by decide +kernel
theorem test_ill_formed_vectors :
    [Instr.vadd ⟨.none, none, some .t8, 1, 2, 3⟩, .vdiv ⟨.none, none, some .i8, 1, 2, 3⟩, .vshl ⟨.none, none, some .f32, 1, 2, 3⟩,
     .vfma ⟨.none, none, some .i32, 1, 2, 3, 4⟩, .vfma ⟨.none, none, none, 1, 2, 3, 0⟩, .vsel ⟨.none, none, none, 1, 2, 3⟩,
     .vcomp ⟨.none, none, none, 1, 2⟩, .vcvt ⟨.none, none, none, 1, 2⟩, .vscale ⟨.none, none, some .f32, 1, 2⟩,
     .vld ⟨.none, none, some .t6, .va, false, .none, 1, 2, 0⟩, .vld ⟨.none, none, none, .va, false, .ft, 1, 2, 0⟩,
     .vld ⟨.none, none, none, .va, false, .none, 1, 2, 2 ^ 14⟩, .vst ⟨.none, none, none, .va, false, .none, 1, 2, 2 ^ 14⟩,
     .vlds ⟨.none, none, none, .va, false, .ft, 1, 2, 3⟩, .vldb ⟨.none, none, some .i32, .va, false, .none, 1, 2, 3⟩,
     .vstb ⟨.none, none, some .f32, .va, false, .none, 1, 2, 3⟩, .vscatadd ⟨.none, none, some .bf16, .va, 1, 2, 3⟩,
     .vtopkins ⟨.none, none, none, 2, 4, 6⟩, .vtopkins ⟨.none, some 0, none, 3, 4, 6⟩, .vtopkthr ⟨.none, none, some .i32, 1, 2⟩,
     .vnmask ⟨.none, none, some .bf16, 1, 2⟩].all (fun i => !i.wf) = true := by decide +kernel
theorem test_ill_formed_steps :
    [Instr.barrelTurn ⟨⟨64, 0, 0⟩⟩, .barrelTurn ⟨⟨0, 240, 0⟩⟩, .barrelTurn ⟨⟨0, 0, 256⟩⟩, .tscSync ⟨1024⟩, .doorbellLaunch ⟨64, Vector.replicate 8 0⟩,
     .controlRegisterWrite ⟨C, 4, 0⟩, .controlRegisterWrite ⟨C, 65536, 0⟩, .hostRead ⟨12, 0, 4⟩, .hostWrite ⟨0, 2 ^ 42, []⟩,
     .hostAtomic ⟨0, 0, 3, 4, 0, 0⟩, .hostAtomic ⟨0, 0, 0, 2, 0, 0⟩, .hostAtomic ⟨0, 4, 0, 8, 0, 0⟩, .boot ⟨64, [], [], []⟩,
     .attestation ⟨[]⟩, .powerCheck ⟨80, 0⟩].all (fun i => !i.wf) = true := by decide +kernel

/-! ### Single instructions whose results the spec's worked examples give -/

/-- The strand with values in g3, g4 and g5, and FCW. -/
def Tx' (fcw : Fcw) (a b c : Word) : Strand := strand [(3, a), (4, b), (5, c)] (fun st => { st with fcw := fcw })
def runs (i : Instr) (fcw : Fcw) (a b c : Word) : Option Strand := (nextOf S0 (exec i (sample (Tx' fcw a b c) id))).strandAt C 0
def gives2 (i : Instr) (a b v : Word) : Bool := (runs i T0.fcw a b 0).any (fun st => st.reg 2 == v && st.pc == T0.pc + 2)
end Sys2Proof.Tests
end

section
/-! PROOFS. Numbers and doublewords: the bits of the model's fields, extensions and counts, and the bytes of its little-endian lists. -/
namespace Sys2Proof.Machine
open Sys2Proof

/-! ### Bits of a number as bits of its doubleword -/

theorem getLsbD_wd (n i : Nat) : (wd n).getLsbD i = (decide (i < 64) && n.testBit i) := BitVec.getLsbD_ofNat 64 n i

theorem toNat_wd (n : Nat) : (wd n).toNat = n % 2 ^ 64 := BitVec.toNat_ofNat n 64

@[simp] theorem wd_toNat (a : Word) : wd a.toNat = a := by simp [wd]

theorem bitAt_eq_getLsbD (v : Word) (n : Nat) : bitAt v n = v.getLsbD n := by
  rw [bitAt, ← BitVec.testBit_toNat, Nat.testBit_eq_decide_div_mod_eq]

/-- A field replaced: the bits of x inside it, the old bits outside. -/
theorem getLsbD_setFld (v : Word) {hi lo : Nat} (x : Nat) (h : lo ≤ hi) {i : Nat} (hi64 : i < 64) :
    (setFld v hi lo x).getLsbD i = if lo ≤ i ∧ i ≤ hi then x.testBit (i - lo) else v.getLsbD i := by
  have above := Nat.div_add_mod (v.toNat / 2 ^ lo) (2 ^ (hi + 1 - lo))
  have whole := Nat.div_add_mod v.toNat (2 ^ lo)
  have parts : v.toNat - fld v hi lo * 2 ^ lo + x % 2 ^ (hi + 1 - lo) * 2 ^ lo =
      2 ^ lo * (2 ^ (hi + 1 - lo) * (v.toNat / 2 ^ lo / 2 ^ (hi + 1 - lo)) + x % 2 ^ (hi + 1 - lo)) + v.toNat % 2 ^ lo := by
    rw [← above, Nat.mul_add] at whole
    rw [fld, Nat.mul_add, Nat.mul_comm (_ % _) (2 ^ lo), Nat.mul_comm (x % _) (2 ^ lo)]
    omega
  rw [setFld, getLsbD_wd, parts, Nat.testBit_two_pow_mul_add _ (Nat.mod_lt _ (Nat.two_pow_pos lo)),
    Nat.testBit_two_pow_mul_add _ (Nat.mod_lt _ (Nat.two_pow_pos _)), ← BitVec.testBit_toNat]
  simp only [Nat.testBit_mod_two_pow, Nat.testBit_div_two_pow, hi64, decide_true, Bool.true_and]
  by_cases below : i < lo
  · rw [if_pos below, if_neg (by omega), decide_eq_true below, Bool.true_and]
  rw [if_neg below]
  by_cases inside : i ≤ hi
  · rw [if_pos (show i - lo < hi + 1 - lo by omega), if_pos ⟨by omega, inside⟩]
    simp [show i - lo < hi + 1 - lo by omega]
  · rw [if_neg (show ¬ i - lo < hi + 1 - lo by omega), if_neg (by omega)]
    congr 1; omega

/-! ### Sign extension -/

theorem sextInt_eq_toInt (x n : Nat) : sextInt x n = (BitVec.ofNat n x).toInt := by
  rw [BitVec.toInt_eq_toNat_cond, BitVec.toNat_ofNat]
  cases n with
  | zero => simp [sextInt, Nat.mod_one]
  | succ n => simp only [sextInt, Nat.add_sub_cancel, Nat.pow_succ']; split_ifs <;> omega

theorem ofExact_sextInt (x n : Nat) : Word.ofExact (sextInt x n) = (BitVec.ofNat n x).signExtend 64 := by
  rw [sextInt_eq_toInt]; rfl

theorem sext_eq_signExtend (a : Word) (n : Nat) : sext a n = (a.setWidth n).signExtend 64 := by
  rw [sext, ofExact_sextInt, BitVec.ofNat_toNat]

/-! ### Counts and reversal -/

theorem ctzN_le (n v : Nat) : ctzN n v ≤ n := by
  induction n generalizing v with
  | zero => exact Nat.le_refl 0
  | succ n ih =>
    rw [ctzN]
    split
    · exact Nat.zero_le _
    · have := ih (v / 2); omega

theorem testBit_below_ctzN {n v i : Nat} (h : i < ctzN n v) : v.testBit i = false := by
  induction n generalizing v i with
  | zero => exact absurd h (Nat.not_lt_zero i)
  | succ n ih =>
    rw [ctzN] at h
    split at h
    · exact absurd h (Nat.not_lt_zero i)
    · next even =>
      cases i with
      | zero => simpa [Nat.testBit_zero] using even
      | succ i => rw [Nat.testBit_succ]; exact ih (by omega)

theorem testBit_ctzN {n v : Nat} (h : ctzN n v < n) : v.testBit (ctzN n v) = true := by
  induction n generalizing v with
  | zero => exact absurd h (Nat.not_lt_zero _)
  | succ n ih =>
    rw [ctzN] at h ⊢
    split at h
    · next odd => simp [odd]
    · next even => rw [if_neg even, Nat.add_comm, Nat.testBit_succ]; exact ih (by omega)

theorem popN_eq_length_filter (n v : Nat) : popN n v = ((List.range n).filter v.testBit).length := by
  induction n generalizing v with
  | zero => rfl
  | succ n ih =>
    have shifted : (List.range n).countP (v.testBit ∘ Nat.succ) = popN n (v / 2) := by
      rw [ih, ← List.countP_eq_length_filter]; exact List.countP_congr fun i _ => by simp [Nat.testBit_succ]
    rw [popN, ← List.countP_eq_length_filter, List.range_succ_eq_map, List.countP_cons, List.countP_map, shifted,
      Nat.testBit_zero, Nat.add_comm]
    rcases Nat.mod_two_eq_zero_or_one v with h | h <;> simp [h]

theorem testBit_revN (n v acc i : Nat) :
    (revN n v acc).testBit i = if i < n then v.testBit (n - 1 - i) else acc.testBit (i - n) := by
  induction n generalizing v acc with
  | zero => simp [revN]
  | succ n ih =>
    rw [revN, ih]
    rcases Nat.lt_trichotomy i n with h | rfl | h
    · rw [if_pos h, if_pos (by omega), ← Nat.testBit_succ]; congr 1; omega
    · simp [Nat.testBit_zero]
    · obtain ⟨j, rfl⟩ := Nat.exists_eq_add_of_lt h
      have shifted : (acc * 2 + v % 2) / 2 = acc := by omega
      rw [if_neg (by omega), if_neg (by omega), show n + j + 1 - n = j + 1 by omega, Nat.testBit_succ, shifted]
      congr 1; omega

/-! ### Little-endian bytes -/

@[simp] theorem length_leBytes (n v : Nat) : (leBytes n v).length = n := by
  induction n generalizing v with
  | zero => rfl
  | succ n ih => simp [leBytes, ih]

theorem getElem_leBytes (n v i : Nat) (h : i < (leBytes n v).length) : (leBytes n v)[i] = BitVec.ofNat 8 (v / 256 ^ i) := by
  induction n generalizing v i with
  | zero => simp at h
  | succ n ih =>
    cases i with
    | zero => simp [leBytes]
    | succ i => simp [leBytes, ih, Nat.div_div_eq_div_mul, Nat.pow_succ']

theorem ofLe_lt (l : List Byte) : ofLe l < 256 ^ l.length := by
  induction l with
  | nil => decide
  | cons b t ih => have := b.isLt; rw [ofLe, List.length_cons, Nat.pow_succ']; omega

/-- The i-th byte of a number in byte order. -/
theorem ofLe_byte (l : List Byte) (i : Nat) (h : i < l.length) : ofLe l / 256 ^ i % 256 = l[i].toNat := by
  induction l generalizing i with
  | nil => simp at h
  | cons b t ih =>
    have := b.isLt
    cases i with
    | zero => simp only [ofLe, Nat.pow_zero, Nat.div_one, List.getElem_cons_zero]; omega
    | succ i =>
      have shifted : (b.toNat + 256 * ofLe t) / 256 = ofLe t := by omega
      rw [ofLe, Nat.pow_succ', ← Nat.div_div_eq_div_mul, shifted, List.getElem_cons_succ]
      exact ih i (by simpa using h)

end Sys2Proof.Machine
end

section
/-! PROOFS. The values of the integer instructions (04 R115 to R128, R136) as operations on doublewords, or by their bits and bytes. -/
namespace Sys2Proof.Machine
open Sys2Proof

/-! ### Shifts (04 R116) -/

theorem aluShl_eq (a : Word) (n : Nat) : aluShl a n = a <<< n := by
  unfold aluShl
  split
  · next long => exact (BitVec.shiftLeft_eq_zero long).symm
  · exact BitVec.eq_of_toNat_eq (by rw [toNat_wd, BitVec.toNat_shiftLeft, Nat.shiftLeft_eq])

theorem aluShr_eq (a : Word) (n : Nat) : aluShr a n = a >>> n := by
  unfold aluShr
  split
  · next long => exact (BitVec.ushiftRight_eq_zero long).symm
  · refine BitVec.eq_of_toNat_eq ?_
    rw [toNat_wd, BitVec.toNat_ushiftRight, Nat.shiftRight_eq_div_pow]
    exact Nat.mod_eq_of_lt (Nat.lt_of_le_of_lt (Nat.div_le_self _ _) a.isLt)

/-- Beyond the word an arithmetic shift gives the sign in every bit, as a shift by 63 does. -/
theorem sshiftRight_of_long (a : Word) {n : Nat} (h : 64 ≤ n) : a.sshiftRight 63 = a.sshiftRight n := by
  refine BitVec.eq_of_getLsbD_eq fun i hi => ?_
  rw [BitVec.getLsbD_sshiftRight, BitVec.getLsbD_sshiftRight, if_neg (show ¬ n + i < 64 by omega), BitVec.msb_eq_getLsbD_last]
  split
  · next first => rw [show 63 + i = 64 - 1 by omega]
  · rfl

theorem aluSar_eq (a : Word) (n : Nat) : aluSar a n = a.sshiftRight n := by
  have shift (k : Nat) : Word.ofExact (shrInt a.sval k) = a.sshiftRight k := by
    rw [shrInt, ← Int.shiftRight_eq_div_pow]; rfl
  rw [aluSar, shift]
  split
  · next long => exact sshiftRight_of_long a long
  · rfl

/-! ### Division (04 R123) -/

theorem aluDivu_eq (a b : Word) : aluDivu a b = if b = 0 then BitVec.allOnes 64 else a / b := by
  rw [aluDivu, ← BitVec.toNat_udiv, wd_toNat]; rfl

theorem aluRemu_eq (a b : Word) : aluRemu a b = if b = 0 then a else a % b := by
  rw [aluRemu, ← BitVec.toNat_umod, wd_toNat]

/-! ### Rotations (04 R124) -/

theorem aluRotl_eq (a b : Word) : aluRotl a b = a.rotateLeft (b.toNat % 64) := by
  refine BitVec.eq_of_getLsbD_eq fun i hi => ?_
  have within : b.toNat % 64 < 64 := Nat.mod_lt _ (by decide)
  have wrapped : a.toNat / 2 ^ (64 - b.toNat % 64) < 2 ^ (b.toNat % 64) := by
    rw [Nat.div_lt_iff_lt_mul (Nat.two_pow_pos _), ← Nat.pow_add, Nat.add_sub_cancel' within.le]; exact a.isLt
  rw [aluRotl, getLsbD_wd, Nat.mul_comm, Nat.testBit_two_pow_mul_add _ wrapped, BitVec.getLsbD_rotateLeft, Nat.mod_mod,
    Nat.testBit_div_two_pow, BitVec.testBit_toNat, BitVec.testBit_toNat, Nat.add_comm i]
  by_cases low : i < b.toNat % 64 <;> simp [low, hi]

/-- A rotation to the right is one to the left by the rest of the word. -/
theorem rotateRight_eq_rotateLeft (a : Word) (n : Nat) : a.rotateRight n = a.rotateLeft (64 - n % 64) := by
  refine BitVec.eq_of_getLsbD_eq fun i hi => ?_
  rw [BitVec.getLsbD_rotateRight, BitVec.getLsbD_rotateLeft]
  rcases Nat.eq_zero_or_pos (n % 64) with whole | part
  · simp [whole, hi]
  · rw [Nat.mod_eq_of_lt (show 64 - n % 64 < 64 by omega), show 64 - (64 - n % 64) = n % 64 by omega]

theorem aluRotr_eq (a b : Word) : aluRotr a b = a.rotateRight (b.toNat % 64) := by
  have small : 64 - b.toNat % 64 < 2 ^ 64 := by omega
  rw [aluRotr, aluRotl_eq, rotateRight_eq_rotateLeft, toNat_wd, Nat.mod_eq_of_lt small, Nat.mod_mod]
  refine BitVec.eq_of_getLsbD_eq fun i _ => ?_
  rw [BitVec.getLsbD_rotateLeft, BitVec.getLsbD_rotateLeft, Nat.mod_mod]

/-! ### Counts and reversal (04 R125) -/

theorem aluBrev_eq (a : Word) : aluBrev a = a.reverse := by
  refine BitVec.eq_of_getLsbD_eq fun i hi => ?_
  rw [aluBrev, getLsbD_wd, testBit_revN, if_pos hi, BitVec.getLsbD_reverse, BitVec.getMsbD_eq_getLsbD, BitVec.testBit_toNat]

theorem aluPopc_eq (a : Word) : aluPopc a = BitVec.ofNat 64 ((List.range 64).filter (fun i => a.getLsbD i)).length := by
  rw [aluPopc, popN_eq_length_filter]; rfl

theorem exists_aluCtz (a : Word) : ∃ k ≤ 64, aluCtz a = BitVec.ofNat 64 k ∧
    (∀ i < k, a.getLsbD i = false) ∧ (k < 64 → a.getLsbD k = true) :=
  ⟨ctzN 64 a.toNat, ctzN_le 64 _, rfl, fun _ => testBit_below_ctzN, testBit_ctzN⟩

theorem exists_aluClz (a : Word) : ∃ k ≤ 64, aluClz a = BitVec.ofNat 64 k ∧
    (∀ i < k, a.getMsbD i = false) ∧ (k < 64 → a.getMsbD k = true) := by
  have found := exists_aluCtz (aluBrev a)
  simpa only [aluClz, aluBrev_eq, BitVec.getLsbD_reverse] using found

/-! ### LEA, MOVHI, BSWAP and SEXT (04 R117, R122, R128) -/

theorem aluLea_eq (a b : Word) (z : Size) :
    aluLea a b z = a + b * (match z with | .b => 1 | .h => 2 | .w => 4 | .d => 8) := by
  cases z <;> rfl

theorem aluMovhi_low (d : Word) (imm : Nat) : (aluMovhi d imm).extractLsb 35 0 = d.extractLsb 35 0 := by
  refine BitVec.eq_of_getLsbD_eq fun i hi => ?_
  rw [aluMovhi, BitVec.getLsbD_extractLsb, BitVec.getLsbD_extractLsb, getLsbD_setFld d imm (by decide) (by omega), if_neg (by omega)]

theorem aluMovhi_high (d : Word) (imm : Nat) : (aluMovhi d imm).extractLsb 63 36 = BitVec.ofNat 28 imm := by
  refine BitVec.eq_of_getLsbD_eq fun i hi => ?_
  rw [aluMovhi, BitVec.getLsbD_extractLsb, getLsbD_setFld d imm (by decide) (by omega), if_pos (by omega), BitVec.getLsbD_ofNat,
    Nat.add_sub_cancel_left]

theorem sizeBytes_le (z : Size) : sizeBytes z ≤ 8 := by cases z <;> decide

theorem toNat_aluBswap (a : Word) (z : Size) : (aluBswap a z).toNat = ofLe (leBytes (sizeBytes z) a.toNat).reverse := by
  have bound := ofLe_lt (leBytes (sizeBytes z) a.toNat).reverse
  rw [List.length_reverse, length_leBytes] at bound
  rw [aluBswap, toNat_wd]
  exact Nat.mod_eq_of_lt (bound.trans_le (Nat.pow_le_pow_right (by decide) (sizeBytes_le z)))

theorem aluBswap_lt (a : Word) (z : Size) : (aluBswap a z).toNat < 2 ^ (8 * sizeBytes z) := by
  rw [toNat_aluBswap, Nat.pow_mul]
  simpa using ofLe_lt (leBytes (sizeBytes z) a.toNat).reverse

theorem aluBswap_byte (a : Word) (z : Size) {i : Nat} (h : i < sizeBytes z) :
    (aluBswap a z).toNat / 2 ^ (8 * i) % 256 = a.toNat / 2 ^ (8 * (sizeBytes z - 1 - i)) % 256 := by
  have inside : i < (leBytes (sizeBytes z) a.toNat).reverse.length := by simpa using h
  rw [toNat_aluBswap, Nat.pow_mul, Nat.pow_mul, show 2 ^ 8 = 256 from rfl, ofLe_byte _ i inside, List.getElem_reverse, getElem_leBytes,
    length_leBytes, BitVec.toNat_ofNat]

theorem aluSext_eq (a : Word) (z : Size) : aluSext a z = (match z with
    | .b => (a.setWidth 8).signExtend 64
    | .h => (a.setWidth 16).signExtend 64
    | .w => (a.setWidth 32).signExtend 64
    | .d => a) := by
  rw [aluSext, sext_eq_signExtend]
  cases z with
  | b => rfl
  | h => rfl
  | w => rfl
  | d => exact (BitVec.signExtend_eq _).trans (BitVec.setWidth_eq a)

/-! ### Bit fields (04 R126, R127) -/

theorem bfPos_eq (b : Word) : bfPos b = b.toNat % 64 := by simp [bfPos, fld]

theorem bfLen_eq (b : Word) : bfLen b = min (b.toNat / 2 ^ 8 % 128) (64 - b.toNat % 64) := by rw [bfLen, bfPos_eq]; rfl

theorem bfPos_add_bfLen_le (b : Word) : bfPos b + bfLen b ≤ 64 := by rw [bfLen, bfPos_eq]; omega

/-- Inside its length BFX gives the field's bits, above it the extension. -/
theorem getLsbD_aluBfx (a b : Word) {i : Nat} (hi : i < 64) : (aluBfx a b).getLsbD i =
    if i < bfLen b then a.getLsbD (bfPos b + i)
    else b.getLsbD 15 && decide (0 < bfLen b) && a.getLsbD (bfPos b + bfLen b - 1) := by
  have field (j : Nat) : (a.toNat / 2 ^ bfPos b % 2 ^ bfLen b).testBit j = (decide (j < bfLen b) && a.getLsbD (bfPos b + j)) := by
    rw [Nat.testBit_mod_two_pow, Nat.testBit_div_two_pow, BitVec.testBit_toNat, Nat.add_comm]
  unfold aluBfx
  by_cases empty : bfLen b = 0
  · simp [empty]
  have pos : 0 < bfLen b := by omega
  rw [if_neg empty, bitAt_eq_getLsbD]
  cases b.getLsbD 15 with
  | false =>
    rw [if_neg Bool.false_ne_true, getLsbD_wd, field]
    by_cases inside : i < bfLen b <;> simp [inside, hi]
  | true =>
    rw [if_pos rfl, ofExact_sextInt, BitVec.getLsbD_signExtend, BitVec.msb_eq_getLsbD_last, BitVec.getLsbD_ofNat,
      BitVec.getLsbD_ofNat, field, field, show bfPos b + (bfLen b - 1) = bfPos b + bfLen b - 1 by omega]
    by_cases inside : i < bfLen b <;> simp [inside, hi, pos]

theorem getLsbD_aluBfi (d a b : Word) {i : Nat} (hi : i < 64) : (aluBfi d a b).getLsbD i =
    if bfPos b ≤ i ∧ i < bfPos b + bfLen b then a.getLsbD (i - bfPos b) else d.getLsbD i := by
  unfold aluBfi
  split
  · next empty => rw [if_neg (by omega)]
  · next nonempty =>
    rw [getLsbD_setFld d _ (by omega) hi, BitVec.testBit_toNat]
    exact if_congr (by omega) rfl rfl

/-! ### Verdict NaNs of FP32 (03 R83; 04 R136) -/

theorem decFp_f32_eq_vn_iff (x : Nat) : decFp .f32 x = .vn ↔ x / 2 ^ 23 % 256 = 255 ∧ x % 2 ^ 23 / 2 ^ 21 = 1 := by
  unfold decFp
  dsimp only [Fmt.prec]
  split_ifs <;> simp only [false_iff, true_iff] <;> omega

theorem isVN_f32_eq (x : Nat) : isVN .f32 x = decide (0x7FA00000 ≤ x % 2 ^ 31 ∧ x % 2 ^ 31 ≤ 0x7FBFFFFF) := by
  rw [isVN, decide_eq_decide, decFp_f32_eq_vn_iff, Fmt.width]
  omega

end Sys2Proof.Machine
end

section
/-! PROOFS. Integer instructions (04 R115 to R128, R136, R137): each member's meaning is its operand shape with the value of its rule, and a
ready strand writes that value. -/
namespace Sys2Proof.Machine
open Sys2Proof

/-! ### What a register operation of a ready strand does -/

section
variable {s : State} {c : CoreId} {n : Nat} {st : Strand}

/-- A register operation that computes a value and sets no flag writes the value of its sources, and nothing else. -/
theorem State.regOp_writes {g : Guard} {rs : List Reg} (h : Ready s c n st g rs) (srcs : List Reg) (d : Reg)
    (f : List Word → Word) (hs : srcs ⊆ rs) (hd : d ∈ rs) :
    s.regOp g srcs (some d) (fun st v => .value st (f v)) = s.wrote c n st d (f (srcs.map st.reg)) := by
  rw [State.regOp_value h srcs d _ (f (srcs.map st.reg)) Flags.none 0 st hs hd rfl h.noQueue, State.fpEvents_none, Strand.raise_none]

/-- A compare of a ready strand writes its predicate by its sources, and nothing else. -/
theorem State.regOp_compares {g : Guard} {rs : List Reg} (h : Ready s c n st g rs) (srcs : List Reg) (p : Fin 4) (conj : Bool)
    (t : List Word → Bool) (hs : srcs ⊆ rs) :
    s.regOp g srcs none (fun st v => .done (cmpPut st p conj (t v)) none Flags.none 0) =
      s.done c n (st.compared p conj (t (srcs.map st.reg))) := by
  rw [State.regOp_noDest h srcs _ Flags.none 0 _ hs rfl, State.fpEvents_none, Strand.raise_none]
  rfl

theorem aluDAB_ready {o : OpDAB} (h : Ready s c n st o.g [o.a, o.b, o.d]) (f : Word → Word → Word) :
    aluDAB f o s = .next (s.wrote c n st o.d (f (st.reg o.a) (st.reg o.b))) :=
  congrArg Host.Outcome.next (State.regOp_writes h [o.a, o.b] o.d (fun v => f (v0 v) (v1 v)) (by simp) (by simp))

theorem aluDA_ready {o : OpDA} (h : Ready s c n st o.g [o.a, o.d]) (f : Word → Word) :
    aluDA f o s = .next (s.wrote c n st o.d (f (st.reg o.a))) :=
  congrArg Host.Outcome.next (State.regOp_writes h [o.a] o.d (fun v => f (v0 v)) (by simp) (by simp))

theorem aluDAN_ready {o : OpDAN} (h : Ready s c n st o.g [o.a, o.d]) (f : Word → Nat → Word) :
    aluDAN f o s = .next (s.wrote c n st o.d (f (st.reg o.a) o.n)) :=
  congrArg Host.Outcome.next (State.regOp_writes h [o.a] o.d (fun v => f (v0 v) o.n) (by simp) (by simp))

theorem cmpAB_ready {o : OpCmp} (h : Ready s c n st o.g [o.a, o.b]) (t : Word → Word → Bool) :
    cmpAB t o s = .next (s.done c n (st.compared o.p o.conj (t (st.reg o.a) (st.reg o.b)))) :=
  congrArg Host.Outcome.next (State.regOp_compares h [o.a, o.b] o.p o.conj (fun v => t (v0 v) (v1 v)) (by simp))

theorem cmpAI_ready {o : OpCmpI} (h : Ready s c n st o.g [o.a]) (t : Word → Word → Bool) :
    cmpAI t o s = .next (s.done c n (st.compared o.p o.conj (t (st.reg o.a) (BitVec.ofInt 64 o.imm)))) :=
  congrArg Host.Outcome.next (State.regOp_compares h [o.a] o.p o.conj (fun v => t (v0 v) (Word.ofExact o.imm)) (by simp))

/-- A value written may be given in any equal form. -/
theorem wrote_of_eq {out : Out} {d : Reg} {v w : Word} (h : out = .next (s.wrote c n st d v)) (e : v = w) :
    out = .next (s.wrote c n st d w) := by rw [h, e]

/-- MOV of a final source copies it; only a HANDLE-pending source keeps its bit (01 R33). -/
theorem execMov_ready {o : OpDA} (h : Ready s c n st o.g [o.a, o.d]) :
    execMov o s = .next (s.wrote c n st o.d (st.reg o.a)) := by
  have final : st.isHandle o.a = false := Strand.isHandle_of_clear (h.final o.a (by simp))
  rw [execMov, State.issue_ready h [o.a] [] (some o.d) _ (by simp) (by simp) (by simp)]
  simp only [final, Bool.false_and, Bool.false_eq_true, if_false]
  rw [State.writeBack_plain _ _ _ _ _ _ h.noQueue]
  rfl

end

/-! ### The members by shape -/

/-- A member of three registers that computes f computes every g of the same values. -/
theorem exec_aluDAB_congr {i : OpDAB → Instr} {f g : Word → Word → Word} (h : ∀ a b, f a b = g a b)
    (hi : ∀ o s, exec (i o) s = aluDAB f o s) (o : OpDAB) (s : State) : exec (i o) s = aluDAB g o s := by
  rw [hi, funext₂ h]

/-- The same for a member of a register and a count. -/
theorem exec_aluDAN_congr {i : OpDAN → Instr} {f g : Word → Nat → Word} (h : ∀ a n, f a n = g a n)
    (hi : ∀ o s, exec (i o) s = aluDAN f o s) (o : OpDAN) (s : State) : exec (i o) s = aluDAN g o s := by
  rw [hi, funext₂ h]

/-- Every member of three registers is its operand shape with the value of its rule. -/
theorem exec_intRRR : ∀ p ∈ intRRR, ∀ (o : OpDAB) (s : State), exec (p.1 o) s = aluDAB p.2 o s := by
  simp only [intRRR, List.forall_mem_cons]
  refine ⟨?add, ?sub, ?and, ?or, ?xor, ?mul, ?shl, ?shr, ?sar, ?mulhu, ?min, ?max, ?minu, ?maxu, ?div, ?rem, ?divu, ?remu, ?rotl, ?rotr,
    ?vnrep, List.forall_mem_nil _⟩
  case shl => exact exec_aluDAB_congr (fun a b => aluShl_eq a b.toNat) fun _ _ => rfl
  case shr => exact exec_aluDAB_congr (fun a b => aluShr_eq a b.toNat) fun _ _ => rfl
  case sar => exact exec_aluDAB_congr (fun a b => aluSar_eq a b.toNat) fun _ _ => rfl
  case divu => exact exec_aluDAB_congr aluDivu_eq fun _ _ => rfl
  case remu => exact exec_aluDAB_congr aluRemu_eq fun _ _ => rfl
  case rotl => exact exec_aluDAB_congr aluRotl_eq fun _ _ => rfl
  case rotr => exact exec_aluDAB_congr aluRotr_eq fun _ _ => rfl
  all_goals exact fun _ _ => rfl

/-- The members of two registers whose rule is an operation on the whole word. -/
theorem exec_intRR_ready {s : State} {c : CoreId} {n : Nat} {st : Strand} : ∀ p ∈ intRR, ∀ o : OpDA,
    Ready s c n st o.g [o.a, o.d] → exec (p.1 o) s = .next (s.wrote c n st o.d (p.2 (st.reg o.a))) := by
  simp only [intRR, List.forall_mem_cons]
  refine ⟨fun _ => execMov_ready, fun o h => ?not, fun o h => ?neg, fun o h => ?brev, fun o h => ?popc, List.forall_mem_nil _⟩
  case not => exact aluDA_ready h (fun a => ~~~a)
  case neg => exact wrote_of_eq (aluDA_ready h fun a => 0 - a) (BitVec.zero_sub _)
  case brev => exact wrote_of_eq (aluDA_ready h aluBrev) (aluBrev_eq _)
  case popc => exact wrote_of_eq (aluDA_ready h aluPopc) (aluPopc_eq _)

theorem exec_intRN : ∀ p ∈ intRN, ∀ (o : OpDAN) (s : State), exec (p.1 o) s = aluDAN p.2 o s := by
  simp only [intRN, List.forall_mem_cons]
  exact ⟨exec_aluDAN_congr aluShl_eq fun _ _ => rfl, exec_aluDAN_congr aluShr_eq fun _ _ => rfl,
    exec_aluDAN_congr aluSar_eq fun _ _ => rfl, List.forall_mem_nil _⟩

theorem exec_intCmp : ∀ p ∈ intCmp, ∀ (o : OpCmp) (s : State), exec (p.1 o) s = cmpAB p.2 o s := by
  simp only [intCmp, List.forall_mem_cons]
  exact ⟨fun _ _ => rfl, fun _ _ => rfl, fun _ _ => rfl, fun _ _ => rfl, List.forall_mem_nil _⟩

theorem exec_intCmpI : ∀ p ∈ intCmpI, ∀ (o : OpCmpI) (s : State), exec (p.1 o) s = cmpAI p.2 o s := by
  simp only [intCmpI, List.forall_mem_cons]
  exact ⟨fun _ _ => rfl, fun _ _ => rfl, List.forall_mem_nil _⟩

/-! ### Members with a shape of their own -/

section
variable {s : State} {c : CoreId} {n : Nat} {st : Strand}

theorem execAddi_ready {o : OpDAI} (h : Ready s c n st o.g [o.a, o.d]) :
    execAddi o s = .next (s.wrote c n st o.d (st.reg o.a + BitVec.ofInt 64 o.imm)) :=
  congrArg Host.Outcome.next
    (State.regOp_writes h [o.a] o.d (fun v => v0 v + Word.ofExact o.imm) (by simp) (by simp))

theorem execMovi_ready {o : OpDI} (h : Ready s c n st o.g [o.d]) :
    execMovi o s = .next (s.wrote c n st o.d (BitVec.ofInt 64 o.imm)) :=
  congrArg Host.Outcome.next (State.regOp_writes h [] o.d (fun _ => Word.ofExact o.imm) (by simp) (by simp))

theorem execMovhi_ready {o : OpDN} (h : Ready s c n st o.g [o.d]) :
    execMovhi o s = .next (s.wrote c n st o.d (aluMovhi (st.reg o.d) o.n)) :=
  congrArg Host.Outcome.next (State.regOp_writes h [o.d] o.d (fun v => aluMovhi (v0 v) o.n) (by simp) (by simp))

theorem execLea_ready {o : OpDABS} (h : Ready s c n st o.g [o.a, o.b, o.d]) :
    execLea o s = .next (s.wrote c n st o.d (aluLea (st.reg o.a) (st.reg o.b) o.size)) :=
  congrArg Host.Outcome.next
    (State.regOp_writes h [o.a, o.b] o.d (fun v => aluLea (v0 v) (v1 v) o.size) (by simp) (by simp))

theorem execSext_ready {o : OpDAS} (h : Ready s c n st o.g [o.a, o.d]) :
    execSext o s = .next (s.wrote c n st o.d (aluSext (st.reg o.a) o.size)) :=
  congrArg Host.Outcome.next (State.regOp_writes h [o.a] o.d (fun v => aluSext (v0 v) o.size) (by simp) (by simp))

theorem execBswap_ready {o : OpDAS} (h : Ready s c n st o.g [o.a, o.d]) :
    execBswap o s = .next (s.wrote c n st o.d (aluBswap (st.reg o.a) o.size)) :=
  congrArg Host.Outcome.next (State.regOp_writes h [o.a] o.d (fun v => aluBswap (v0 v) o.size) (by simp) (by simp))

theorem execBfi_ready {o : OpDAB} (h : Ready s c n st o.g [o.a, o.b, o.d]) :
    execBfi o s = .next (s.wrote c n st o.d (aluBfi (st.reg o.d) (st.reg o.a) (st.reg o.b))) :=
  congrArg Host.Outcome.next
    (State.regOp_writes h [o.a, o.b, o.d] o.d (fun v => aluBfi (v2 v) (v0 v) (v1 v)) (by simp) (by simp))

theorem execVntest_ready {o : OpCmpA} (h : Ready s c n st o.g [o.a]) :
    execVntest o s = .next (s.done c n (st.compared o.p o.conj (isVN .f32 (st.lo32 o.a)))) :=
  congrArg Host.Outcome.next (State.regOp_compares h [o.a] o.p o.conj (fun v => isVN .f32 (low32 (v0 v))) (by simp))

end

end Sys2Proof.Machine
end

section
/-! PROOFS. The statements on integer instructions (04 R115 to R128, R136, R137). -/
open Sys2Proof Sys2Proof.Machine

/-- Settles O1: each member's meaning is its shape with the value of its rule; CLZ is CTZ of the reversed word. -/
theorem integerRegisterResults : Obligations.IntegerRegisterResults := by
  unfold Obligations.IntegerRegisterResults
  refine ⟨fun p hp o s c n st ready => ?rrr, fun p hp o s c n st ready => ?rr, fun o s c n st ready => ?ctz, fun o s c n st ready => ?clz⟩
  case rrr => exact (exec_intRRR p hp o s).trans (aluDAB_ready ready p.2)
  case rr => exact exec_intRR_ready p hp o ready
  case ctz =>
    obtain ⟨k, hk, value, found⟩ := exists_aluCtz (st.reg o.a)
    exact ⟨k, hk, wrote_of_eq (aluDA_ready ready aluCtz) value, found⟩
  case clz =>
    obtain ⟨k, hk, value, found⟩ := exists_aluClz (st.reg o.a)
    exact ⟨k, hk, wrote_of_eq (aluDA_ready ready aluClz) value, found⟩

/-- Settles O2: the immediates by their operations, MOVHI, BSWAP, BFX and BFI by the bits and bytes of their values. -/
theorem integerImmediateAndFieldResults : Obligations.IntegerImmediateAndFieldResults := by
  unfold Obligations.IntegerImmediateAndFieldResults
  refine ⟨fun s c n st => ⟨fun p hp o ready => ?count, fun o => execAddi_ready, fun o => execMovi_ready, fun o ready => ?movhi,
    fun o ready => ?lea, fun o ready => ?sext, fun o ready => ?bswap⟩, fun o s c n st ready => ?field⟩
  case count => exact (exec_intRN p hp o s).trans (aluDAN_ready ready p.2)
  case movhi => exact ⟨_, execMovhi_ready ready, aluMovhi_low _ _, aluMovhi_high _ _⟩
  case lea => exact wrote_of_eq (execLea_ready ready) (aluLea_eq _ _ _)
  case sext => exact wrote_of_eq (execSext_ready ready) (aluSext_eq _ _)
  case bswap => exact ⟨_, execBswap_ready ready, fun _ => aluBswap_byte _ _, aluBswap_lt _ _⟩
  case field =>
    intro f pos len
    have hpos : bfPos f = pos := bfPos_eq f
    have hlen : bfLen f = len := bfLen_eq f
    rw [← hpos, ← hlen]
    refine ⟨⟨aluBfx (st.reg o.a) f, aluDAB_ready ready aluBfx, fun i hi => ?inside, fun i above hi => ?above⟩,
      ⟨aluBfi (st.reg o.d) (st.reg o.a) f, execBfi_ready ready, fun i hi => getLsbD_aluBfi _ _ _ hi⟩⟩
    case inside =>
      have fits := bfPos_add_bfLen_le f
      rw [getLsbD_aluBfx _ _ (by omega), if_pos hi]
    case above => rw [getLsbD_aluBfx _ _ hi, if_neg (by omega)]

/-- Settles O3: each compare is its shape with the test of its rule; VNTEST tests the verdict range of FP32. -/
theorem comparesWriteOnePredicate : Obligations.ComparesWriteOnePredicate := by
  unfold Obligations.ComparesWriteOnePredicate
  refine fun s c n st => ⟨fun p hp o ready => ?registers, fun p hp o ready => ?immediate, fun o ready => ?vntest⟩
  case registers => exact (exec_intCmp p hp o s).trans (cmpAB_ready ready p.2)
  case immediate => exact (exec_intCmpI p hp o s).trans (cmpAI_ready ready p.2)
  case vntest => exact isVN_f32_eq (st.lo32 o.a) ▸ execVntest_ready ready

end

section
/-! PROOFS. NOP of a ready strand, and the place for a child that a strand holds (05 R163, R166, R180). -/
namespace Sys2Proof.Machine
open Sys2Proof

/-! ### The place held for a child -/

/-- The loop-end step, at any depth, keeps the place that a SPAWN under way holds. -/
theorem nest_loopEnd (k : Nat) (st : Strand) (t : Word) : (loopEnd k st t).nest = st.nest := by
  induction k generalizing st with
  | zero => rfl
  | succ k ih =>
    rw [loopEnd]
    dsimp only
    split_ifs with outside counted again
    · rfl
    · rfl
    · exact ih _
    · rfl

@[simp] theorem Strand.nest_goTo (st : Strand) (t : Word) : (st.goTo t).nest = st.nest := nest_loopEnd 4 st t

/-- A complete instruction gives the place back. -/
@[simp] theorem Strand.nest_finish (st : Strand) : st.finish.nest = none := Strand.nest_goTo _ _

/-! ### NOP -/

theorem execNop_ready {s : State} {c : CoreId} {n : Nat} {st : Strand} {o : Op0} (h : Ready s c n st o.g []) :
    execNop o s = .next (s.done c n st) :=
  congrArg Host.Outcome.next (State.issue_ready h [] [] none _ (by simp) (by simp) (by simp))

/-! ### A strand that holds a place and comes to a NOP -/

/-- A strand whose SPAWN holds slot 16 and waited (05 R166 step 3); the chain it has now fetched is a NOP. -/
def nestingStrand : Strand := { Strand.fresh with nest := some 16, chain := [0xC800] }
/-- The state after power-on with that strand in slot 0 of core (0, 0), whose turn it is. -/
def nestingState : State := { State.reset with cur := some (⟨0, 0, 0⟩, 0) }.putStrand ⟨0, 0, 0⟩ 0 nestingStrand

theorem nestingState_ready : Ready nestingState ⟨0, 0, 0⟩ 0 nestingStrand .none [] where
  turn := by simp [nestingState, State.curStrand]
  guard := rfl
  final := by simp
  noQueue := rfl

end Sys2Proof.Machine
end

section
/-! PROOFS. The statement on branches, calls, loops, NOP and the pins (05 R159 to R164, R180, R182). -/
open Sys2Proof Sys2Proof.Machine

/-- Refutes O10: NOP completes and so gives back the place that an earlier SPAWN holds for its child, where the statement clears
only the deadline of what was under way, and so keeps that place. `nestingStrand` holds slot 16: after NOP the model's strand holds
no place, and the statement's strand still holds slot 16. -/
theorem not_controlFlowResultsAndFaults : ¬ Obligations.ControlFlowResultsAndFaults := by
  unfold Obligations.ControlFlowResultsAndFaults
  rintro ⟨results, -⟩
  obtain ⟨-, -, -, -, -, others⟩ := results nestingState ⟨0, 0, 0⟩ 0 nestingStrand
  obtain ⟨stated, -⟩ := others ⟨.none⟩ nestingState_ready
  have states := Host.Outcome.next.inj ((execNop_ready (o := ⟨.none⟩) nestingState_ready).symm.trans stated)
  have strands := congrArg (fun t => t.strandAt ⟨0, 0, 0⟩ 0) states
  simp only [State.done, State.strandAt_putStrand, Option.some.injEq] at strands
  have places := congrArg Strand.nest strands
  rw [Strand.nest_finish, Strand.nest_goTo] at places
  exact absurd places (by decide : (none : Option Nat) ≠ some 16)
end

section
/-! PROOFS. Queries of the core and of the strand's place (07 R237; 10 R343; 12 R386): each waits for a LOAD-pending g[x], and else
writes its word there. -/
namespace Sys2Proof.Machine
open Sys2Proof

/-! ### Fields of a word -/

@[simp] theorem fld_zero (v : Word) (hi : Nat) : fld v hi 0 = v.toNat % 2 ^ (hi + 1) := by simp [fld]

/-! ### The gate of an instruction that only writes a register -/

section
variable {s : State} {c : CoreId} {n : Nat} {st : Strand}

theorem Strand.isLoad_of_not_load {r : Reg} (h : st.pending r ≠ .load) : st.isLoad r = false := by
  unfold Strand.isLoad
  cases hp : st.pending r with
  | load => exact absurd hp h
  | _ => exact Bool.and_false _

theorem Strand.isLoad_of_load {r : Reg} (h : st.pending r = .load) (q : st.stat.qbound = false) : st.isLoad r = true := by
  simp [Strand.isLoad, h, Strand.isPort_of_noQueue r q]

/-- A destination that is LOAD-pending blocks the strand (05 R154). -/
theorem State.gate_dest_load {d : Reg} (h : st.pending d = .load) (q : st.stat.qbound = false) :
    s.gate c n st [] [] (some d) = .stop (s.block c n st .mem) := by
  simp [State.gate, Strand.isLoad_of_load h q]

/-- Nothing else of a destination is waited for: a HANDLE-pending one is written over (01 R33). -/
theorem State.gate_dest_not_load {d : Reg} (h : st.pending d ≠ .load) (q : st.stat.qbound = false) :
    s.gate c n st [] [] (some d) = .go st [] (fun s => s) := by
  simp [State.gate, Strand.isLoad_of_not_load h, q]

/-! ### A query of a strand that has the turn -/

theorem State.queryOp_load {o : OpX} (h : Ready s c n st o.g []) (p : st.pending o.x = .load) (f : State → CoreId → Strand → Word) :
    s.queryOp o f = s.putStrand c n { st with run := .blocked .mem } := by
  simp [State.queryOp, State.issue, h.turn, h.guard, State.gate_dest_load p h.noQueue, State.block]

theorem State.queryOp_not_load {o : OpX} (h : Ready s c n st o.g []) (p : st.pending o.x ≠ .load)
    (f : State → CoreId → Strand → Word) : s.queryOp o f = s.wrote c n st o.x (f s c st) := by
  simp [State.queryOp, State.issue, h.turn, h.guard, State.gate_dest_not_load p h.noQueue,
    State.writeBack_plain _ _ _ _ _ _ h.noQueue]

/-- An instruction that is a query of the number v writes v to g[x]. -/
theorem query_gives {i : Instr} {o : OpX} {f : State → CoreId → Strand → Word} {v : Nat} (hi : exec i s = .next (s.queryOp o f))
    (h : Ready s c n st o.g []) (p : st.pending o.x ≠ .load) (e : f s c st = wd v) :
    exec i s = .next (s.wrote c n st o.x (BitVec.ofNat 64 v)) := by
  rw [hi, State.queryOp_not_load h p, e, wd]

end

/-- The six members are queries, each of a word of its own. -/
theorem exec_queries (o : OpX) (s : State) : ∀ i ∈ [Instr.whereAt o, .lnum o, .tsc o, .crewinfo o, .feat o, .ganginfo o],
    ∃ f, exec i s = .next (s.queryOp o f) := by
  simp only [List.forall_mem_cons]
  exact ⟨⟨_, rfl⟩, ⟨_, rfl⟩, ⟨_, rfl⟩, ⟨_, rfl⟩, ⟨_, rfl⟩, ⟨_, rfl⟩, List.forall_mem_nil _⟩

end Sys2Proof.Machine
end

section
/-! PROOFS. The statement on the queries of a core and of a strand's place (07 R237; 10 R343; 12 R386). -/
open Sys2Proof Sys2Proof.Machine

/-- Settles O25: each member is a query of g[x], so it blocks on a LOAD-pending g[x] and else writes its word; the words of CREWINFO and
GANGINFO are the stated ones field by field. -/
theorem queryResults : Obligations.QueryResults := by
  unfold Obligations.QueryResults
  intro o s c n st turn guard noQueue
  have ready : Ready s c n st o.g [] := ⟨turn, guard, by simp, noQueue⟩
  refine ⟨fun pending i hi => ?waits, fun final => ?_⟩
  case waits =>
    obtain ⟨f, query⟩ := exec_queries o s i hi
    rw [query, State.queryOp_load ready pending]
  intro gives gw gh
  refine ⟨?whereAt, ?lnum, ?tsc, ?crewinfo, ?feat, ?ganginfo⟩
  case whereAt => exact query_gives rfl ready final rfl
  case lnum => exact query_gives rfl ready final rfl
  case tsc => exact query_gives rfl ready final rfl
  case crewinfo => exact query_gives rfl ready final (by rw [Strand.spawned, bitAt_eq_getLsbD, Strand.member, fld_zero]; rfl)
  case feat => exact query_gives rfl ready final rfl
  case ganginfo => exact query_gives rfl ready final (by simp only [fld_zero]; rfl)
end
